-- ==== Sys2Proof/Word.lean ====
section
/-! DEFINITION. The word types of the R6GF core (R9, R13): a host register is 32 bits, a GF(2^8) element 8 bits, a block a
sequence of bytes. -/

namespace Sys2Proof

/-- A host register, a command word, a host address (R9, R43, R100). -/
abbrev Word := BitVec 32

/-- An element of GF(2^8), a byte of a buffer or of a block (R9, R200). -/
abbrev Byte := BitVec 8

/-- A block or a piece of one: a sequence of bytes (R13). -/
abbrev Block := List Byte

end Sys2Proof
end

