-- ==== Sys2Proof/Config.lean ====
section
/-! DEFINITION. What one build of the core fixes (R7), and the free values (spec/93: U4, U5, U6, U16). -/

namespace Sys2Proof

/-- PUT_PARITY_MODE (R7, U10): how PUT refreshes parity. -/
inductive ParityMode where
  | recompute    -- 0, R362
  | incremental  -- 1, R363
  deriving DecidableEq, Repr

/-- The build parameters of R7, and the base address of the host port (R114). MAX_BSIZE is held as its logarithm, the form in
which PARAMS0 reports it (R48), so it is a power of two whatever the field holds. DISK0 is not here: it is the initial
`State.disk`. -/
structure Params where
  nbuf : Nat
  log2MaxBsize : Nat
  mulImpl : Bool
  mulLat : Nat
  invImpl : Bool
  invLat : Nat
  lanesLog2 : Nat
  putParityMode : ParityMode
  portBase : Word
  deriving DecidableEq, Repr

/-- MAX_BSIZE: bytes per buffer (R7, R63). -/
def Params.maxBsize (p : Params) : Nat := 2 ^ p.log2MaxBsize

/-- MAX_DISKS, "fixed at 257" (R7, R8). -/
def maxDisks : Nat := 257

/-- The defaults of R7, and port base 0 (DESIGN CHOICE, log 21). -/
def Params.default : Params where
  nbuf := 16
  log2MaxBsize := 12
  mulImpl := false
  mulLat := 0
  invImpl := false
  invLat := 0
  lanesLog2 := 0
  putParityMode := .recompute
  portBase := 0#32

/-- The legal ranges of R7; the port base is a word address (R100). -/
abbrev Params.Legal (p : Params) : Prop :=
  4 ≤ p.nbuf ∧ p.nbuf ≤ 255 ∧ 2 ≤ p.log2MaxBsize ∧ p.log2MaxBsize ≤ 20 ∧
    p.mulLat ≤ 255 ∧ (p.mulImpl = false → p.mulLat = 0) ∧ p.invLat ≤ 255 ∧ p.lanesLog2 ≤ 6 ∧
    p.portBase.extractLsb' 0 2 = 0#2

/-- The kind of a BlockStore FAIL (R105). -/
inductive StoreFailure where
  | io
  | config
  | bounds
  deriving DecidableEq, Repr

/-- What the BlockStore does with one request (R105, R77): it answers OK, answers FAIL(kind), or never answers. -/
inductive Answer where
  | ok
  | fail (kind : StoreFailure)
  | silent
  deriving DecidableEq, Repr, Inhabited

/-- FREE VALUE (U5, log 2): the BlockStore's answer where `State.answers` holds none. Applied to `State.draws`. -/
opaque Config.freeAnswer : Nat → Answer

/-- FREE VALUE (U6, U16, log 4): a byte left by a failed or interrupted BlockStore write. Applied to `State.draws`. -/
opaque Config.freeByte : Nat → Byte

/-- FREE VALUE (U4, log 5): a word read from the buffer window while BUSY = 1. Applied to `State.draws`. -/
opaque Config.freeWord : Nat → Word

end Sys2Proof
end

