-- ==== Sys2Proof/Syntax.lean ====
section
/-! DEFINITION. The command set (R144): one constructor per row of spec/opcode_table.json. A command word carries no operand
field (R140), so no constructor has an argument: every operand is in an ARG register. -/

namespace Sys2Proof

/-- The 24 commands of R144, in the order of the table. -/
inductive Instr where
  | gfMul            -- GF_MUL              0x01, R210
  | gfPow            -- GF_POW              0x02, R211
  | gfInv            -- GF_INV              0x03, R212
  | gfSolve2         -- GF_SOLVE2           0x04, R214
  | blkXor           -- BLK_XOR             0x10, R246
  | blkScale         -- BLK_SCALE           0x11, R247
  | parComputeP      -- PAR_COMPUTE_P       0x12, R248
  | parComputeQ      -- PAR_COMPUTE_Q       0x13, R249
  | parUpdateP       -- PAR_UPDATE_P        0x14, R250
  | parUpdateQ       -- PAR_UPDATE_Q        0x15, R251
  | layPdiskP        -- LAY_PDISK_P         0x20, R288
  | layPdiskQ        -- LAY_PDISK_Q         0x21, R289
  | layIspar         -- LAY_ISPAR           0x22, R290
  | layResolve       -- LAY_RESOLVE         0x23, R291
  | init             -- INIT                0x30, R361
  | put              -- PUT                 0x31, R362 and R363
  | putraw           -- PUTRAW              0x32, R364
  | get              -- GET                 0x33, R365
  | recSingleData    -- REC_SINGLE_DATA     0x40, R313
  | recSingleParity  -- REC_SINGLE_PARITY   0x41, R314
  | recDoubleData    -- REC_DOUBLE_DATA     0x42, R315
  | recDoubleParity  -- REC_DOUBLE_PARITY   0x43, R316
  | recDataAndParity -- REC_DATA_AND_PARITY 0x44, R317
  | check            -- CHECK               0x48, R340
  deriving DecidableEq, Repr

end Sys2Proof
end

