-- ==== Sys2Proof/Machine/State.lean ====
section
/-! DEFINITION. The state of the machine: the core's registers, buffer file and sequencer (R40 to R68), the BlockStore's
contents (R69), and the inputs that are still to come from the host and the BlockStore. Plain data throughout. -/

namespace Sys2Proof.Machine

/-- The error kinds of R401, codes 1 to 7. Codes 8 to 15 are written by no step (U15). -/
inductive ErrorKind where
  | config                -- 1 ConfigError
  | bounds                -- 2 BoundsError
  | layout                -- 3 LayoutError
  | recoveryPrecondition  -- 4 RecoveryPreconditionError
  | storageIO             -- 5 StorageIOError
  | illegalCommand        -- 6 IllegalCommand
  | domain                -- 7 DomainError
  deriving DecidableEq, Repr

/-- A BlockStore request (R105). -/
inductive Request where
  | read (disk block off len : Nat)
  | write (disk block off : Nat) (bytes : Block)
  deriving DecidableEq, Repr

/-- A BlockStore response (R105). The OK of a WRITE carries no bytes: the list is empty there. -/
inductive Response where
  | ok (bytes : Block)
  | fail (kind : StoreFailure)
  deriving DecidableEq, Repr

/-- The BlockStore port of a command in EXEC (R110): no request outstanding, one issued and not yet answered, or one the
BlockStore never answers (R77). -/
inductive PortState where
  | quiet
  | waiting (r : Request)
  | stalled (r : Request)
  deriving DecidableEq, Repr

/-- The sequencer (R68). In EXEC, the position in the command's request sequence and the scratch (R67) are the responses
received so far, oldest first: everything else a command holds in scratch is a function of them. -/
inductive Sequencer where
  | idle
  | exec (history : List Response) (port : PortState)
  deriving DecidableEq, Repr

/-- What may happen next, decided outside the core (log 8, log 11): a host word access (R100), a host that waits for BUSY = 0
(`poll`, R150) or for IRQ (R474), one phase of the running command, a reset (R450). -/
inductive Event where
  | read (addr : Word)
  | write (addr value : Word)
  | poll
  | waitIrq
  | core
  | reset
  deriving DecidableEq, Repr

/-- The geometry of a provisioned BlockStore (R69, R460). -/
structure Geometry where
  disks : Nat
  blocks : Nat
  bsize : Nat
  deriving DecidableEq, Repr

/-- The completion record of one command (R478): the command word, the RES registers as the completion left them, and the error
with its context (R403) where the command completed with one. -/
structure Completion where
  cmd : Word
  res : Vector Word 4
  error : Option (ErrorKind × Word × Word)
  deriving DecidableEq, Repr

/-- What R478 observes of a run that has ended: the registers of R44 with their offsets, BUF, DISK, OVR and the completion
record of each command, oldest first. -/
structure Observation where
  registers : List (Nat × Word)
  buf : List Host.Cell
  disk : List Host.Cell
  ovr : Bool
  completions : List Completion
  deriving DecidableEq, Repr

/-- Why the machine stops. -/
inductive Fault where
  /-- A command operand, or a host window read while BUSY = 0 (log 30), reads a BUF byte that nothing has written since reset
  (R64, R242, U3). Raised by `withBuffer` and `hostRead`. Safe: the hardware returns some byte and goes on. -/
  | unwrittenBuffer
  /-- REC_DOUBLE_DATA meets a singular system, which would need the inverse of 0, a value that does not exist (R208). Raised by
  the program of REC_DOUBLE_DATA, and only in states with more than 257 disks, which INIT never makes (R207). Safe: no state
  that the core reaches raises it. -/
  | singularSystem
  deriving DecidableEq, Repr

/-- Why a step is refused. -/
inductive Refusal where
  /-- The instruction has no meaning in this model. Raised by an arm of `exec` only. Safe: nothing is claimed about it. -/
  | notModelled (mnemonic : String)
  /-- A host access whose address is no multiple of 4, which the port does not define (R103, U9). Raised by `hostRead` and
  `hostWrite`. Safe: nothing is claimed about it. -/
  | misalignedAccess (addr : Word)
  deriving DecidableEq, Repr

/-- The state of the core, of the BlockStore, and the inputs to come. -/
structure State where
  /-- The build parameters (R7), which PARAMS0 and PARAMS1 report (R48, R49). No step changes them. -/
  params : Params
  /-- CFG_NDISKS (R50). -/
  cfgNdisks : Word
  /-- CFG_NBLOCKS (R51). -/
  cfgNblocks : Word
  /-- CFG_BSIZE (R52). -/
  cfgBsize : Word
  /-- CTRL.IRQ_EN (R53). -/
  irqEn : Bool
  /-- STATUS.DONE (R54). -/
  done : Bool
  /-- STATUS.ERR (R54). -/
  err : Bool
  /-- STATUS.OVR (R54). -/
  ovr : Bool
  /-- STATUS.ERRCODE (R54, R401); `none` is code 0. -/
  errcode : Option ErrorKind
  /-- CMD, the last accepted command word (R55). -/
  cmd : Word
  /-- ARG0..ARG7 (R56, R57). -/
  args : Vector Word 8
  /-- ARGL0..ARGL7, the operands as latched at accept (R56). -/
  argl : Vector Word 8
  /-- RES0..RES3 (R58). -/
  res : Vector Word 4
  /-- ERR_OPC (R60). -/
  errOpc : Word
  /-- ERR_DISK (R61). -/
  errDisk : Word
  /-- ERR_STRIPE (R62). -/
  errStripe : Word
  /-- BUF (R63), keyed by `bufKey`; an unlisted byte has no value (R64). -/
  buf : List Host.Cell
  /-- The sequencer (R68); EXEC is STATUS.BUSY. -/
  seq : Sequencer
  /-- DISK, the BlockStore's contents (R69), keyed by `diskKey`; an unlisted byte is 0 (the default of DISK0, R7). -/
  disk : List Host.Cell
  /-- The BlockStore's own geometry (R69); `none` where none is stated (log 18). -/
  geometry : Option Geometry
  /-- The BlockStore's answers to come, in order (R105, U5; log 2). The model's own field. -/
  answers : List Answer
  /-- The events to come, in order (log 8). The model's own field. -/
  agenda : List Event
  /-- The word the host's last read returned (R100; log 8). The model's own field. -/
  rdata : Word
  /-- How many free values have been taken (log 2). The model's own field. -/
  draws : Nat
  /-- The completion record of each command of the run, oldest first (R478; log 29). -/
  completions : List Completion
  deriving DecidableEq, Repr

/-- The machine right after reset (R72, R451), with the default build (R7), the default DISK0 (R7, log 7), and no inputs. -/
def State.reset : State where
  params := Params.default
  cfgNdisks := 0#32
  cfgNblocks := 0#32
  cfgBsize := 0#32
  irqEn := false
  done := false
  err := false
  ovr := false
  errcode := none
  cmd := 0#32
  args := Vector.replicate 8 0#32
  argl := Vector.replicate 8 0#32
  res := Vector.replicate 4 0#32
  errOpc := 0#32
  errDisk := 0#32
  errStripe := 0#32
  buf := []
  seq := .idle
  disk := []
  geometry := none
  answers := []
  agenda := []
  rdata := 0#32
  draws := 0
  completions := []

end Sys2Proof.Machine
end

