-- ==== Sys2Proof/Machine/Ops.lean ====
section
/-! DEFINITION. The shared operations: memory as a sorted list of cells, the buffer file, the BlockStore, the two ways a
command completes (R75, R76: the error completion is this core's exception entry), a command as a program of BlockStore
requests, and the run of such a program. -/

namespace Sys2Proof.Machine

/-! ## Memory: cells in strictly rising order of address, none equal to what an unlisted address reads as -/

/-- The byte at an address; `unlisted` is what an address with no cell reads as. -/
def Memory.read (unlisted : Option Byte) : List Host.Cell → Nat → Option Byte
  | [], _ => unlisted
  | (k, v) :: m, a => if k = a then some v else Memory.read unlisted m a

/-- The cells without any at address `a`. -/
def Memory.erase : List Host.Cell → Nat → List Host.Cell
  | [], _ => []
  | (k, v) :: m, a => if k = a then Memory.erase m a else (k, v) :: Memory.erase m a

/-- The cells with the one at address `a` set, in its place in the order. -/
def Memory.insert : List Host.Cell → Nat → Byte → List Host.Cell
  | [], a, b => [(a, b)]
  | (k, v) :: m, a, b =>
    if a < k then (a, b) :: (k, v) :: m
    else if k = a then (a, b) :: m
    else (k, v) :: Memory.insert m a b

/-- A write of one byte. Writing what an unlisted address reads as takes the cell out. -/
def Memory.write (unlisted : Option Byte) (m : List Host.Cell) (a : Nat) (b : Byte) : List Host.Cell :=
  if unlisted = some b then Memory.erase m a else Memory.insert m a b

/-- Writes of consecutive bytes from address `a` on. -/
def Memory.writeBytes (unlisted : Option Byte) : List Host.Cell → Nat → Block → List Host.Cell
  | m, _, [] => m
  | m, a, b :: bs => Memory.writeBytes unlisted (Memory.write unlisted m a b) (a + 1) bs

/-- `len` consecutive bytes from address `a` on, if each of them has a value. -/
def Memory.readBytes (unlisted : Option Byte) (m : List Host.Cell) : Nat → Nat → Option Block
  | _, 0 => some []
  | a, len + 1 =>
    match Memory.read unlisted m a, Memory.readBytes unlisted m (a + 1) len with
    | some b, some bs => some (b :: bs)
    | _, _ => none

/-- Every address of the list is above `a`, and they rise strictly. -/
def Memory.risingFrom : Nat → List Host.Cell → Bool
  | _, [] => true
  | a, (k, _) :: m => decide (a < k) && Memory.risingFrom k m

/-- The addresses rise strictly. -/
def Memory.rising : List Host.Cell → Bool
  | [] => true
  | (k, _) :: m => Memory.risingFrom k m

/-- The canonical form of a memory. -/
def Memory.wf (unlisted : Option Byte) (m : List Host.Cell) : Bool :=
  Memory.rising m && m.all (fun c => unlisted != some c.2)

/-! ## The buffer file BUF (R63) -/

/-- A BUF byte that nothing has written since reset has no value (R64, U3; log 6). -/
def bufUnlisted : Option Byte := none

/-- The key of BUF[b][i]. -/
def bufKey (p : Params) (b i : Nat) : Nat := b * p.maxBsize + i

/-- The byte BUF[b][i], if it has a value. -/
def State.bufByte (s : State) (b i : Nat) : Option Byte := Memory.read bufUnlisted s.buf (bufKey s.params b i)

/-- The bytes BUF[b][i..i+len-1], if each of them has a value. -/
def State.bufBytes (s : State) (b i len : Nat) : Option Block :=
  Memory.readBytes bufUnlisted s.buf (bufKey s.params b i) len

/-- BUF with the bytes from BUF[b][i] on set. -/
def State.bufWith (s : State) (b i : Nat) (bytes : Block) : List Host.Cell :=
  Memory.writeBytes bufUnlisted s.buf (bufKey s.params b i) bytes

/-! ## The BlockStore's contents DISK (R69) -/

/-- A byte of DISK that nothing has written reads as the default of DISK0, zero (R7, R461(b); DESIGN CHOICE, log 7). -/
def diskUnlisted : Option Byte := some 0#8

/-- The key of DISK[d][blk][off]: one number for the triple. Distinct triples with blk and off below 2^32 have distinct keys
(log 17). -/
def diskKey (d blk off : Nat) : Nat := (d * 2 ^ 32 + blk) * 2 ^ 32 + off

/-- The byte DISK[d][blk][off]. -/
def State.diskByte (s : State) (d blk off : Nat) : Byte :=
  (Memory.read diskUnlisted s.disk (diskKey d blk off)).getD 0#8

/-- The bytes DISK[d][blk][off..off+len-1]. -/
def State.diskBytes (s : State) (d blk off len : Nat) : Block :=
  (List.range len).map (fun j => s.diskByte d blk (off + j))

/-- DISK with the bytes from DISK[d][blk][off] on set. -/
def State.diskWith (s : State) (d blk off : Nat) (bytes : Block) : List Host.Cell :=
  Memory.writeBytes diskUnlisted s.disk (diskKey d blk off) bytes

/-! ## Registers as numbers -/

/-- n = CFG_NDISKS as a number. -/
def State.n (s : State) : Nat := s.cfgNdisks.toNat

/-- NB = CFG_NBLOCKS as a number. -/
def State.nb (s : State) : Nat := s.cfgNblocks.toNat

/-- BS = CFG_BSIZE as a number. -/
def State.bs (s : State) : Nat := s.cfgBsize.toNat

/-- STATUS.BUSY: the sequencer is in EXEC (R54, R68). -/
def State.busy (s : State) : Bool :=
  match s.seq with
  | .idle => false
  | .exec _ _ => true

/-- The responses the running command has received, oldest first (R67, R68). -/
def State.history (s : State) : List Response :=
  match s.seq with
  | .idle => []
  | .exec h _ => h

/-- The running command waits for a response that never comes (R77). -/
def State.isStalled (s : State) : Bool :=
  match s.seq with
  | .exec _ (.stalled _) => true
  | _ => false

/-- The context value for "does not apply" (R403). -/
def noContext : Word := 0xFFFFFFFF#32

/-! ## Completion (R75, R76) -/

/-- The register and buffer writes a command stages and applies at its successful completion (R59, R75). -/
structure Effects where
  res : List (Fin 4 × Word) := []
  buf : Option (Nat × Block) := none
  cfg : Option (Word × Word × Word) := none

/-- The RES registers with the staged writes applied; the ones not named keep their values (R58). -/
def applyRes (res : Vector Word 4) : List (Fin 4 × Word) → Vector Word 4
  | [] => res
  | (i, w) :: ws => applyRes (res.set i.val w i.isLt) ws

/-- The completion records with that of the command that completes now (R478). -/
def State.recorded (s : State) (res : Vector Word 4) (error : Option (ErrorKind × Word × Word)) : List Completion :=
  s.completions ++ [{ cmd := s.cmd, res := res, error := error }]

/-- Successful completion (R75): the staged writes are applied, BUSY 0, DONE 1, ERR 0, ERRCODE 0, in one step. -/
def State.complete (s : State) (e : Effects) : State :=
  { s with
    res := applyRes s.res e.res
    completions := s.recorded (applyRes s.res e.res) none
    buf := match e.buf with | none => s.buf | some (b, bytes) => s.bufWith b 0 bytes
    cfgNdisks := match e.cfg with | none => s.cfgNdisks | some c => c.1
    cfgNblocks := match e.cfg with | none => s.cfgNblocks | some c => c.2.1
    cfgBsize := match e.cfg with | none => s.cfgBsize | some c => c.2.2
    seq := .idle, done := true, err := false, errcode := none }

/-- Completion with error (R76, R404, R416), the core's exception entry: ERR 1, ERRCODE the code of the kind, ERR_OPC the
command word, ERR_DISK and ERR_STRIPE the context, BUSY 0, DONE 1. No RES, CFG or BUF write takes effect. The core has no
return from an error: ERR and ERRCODE stay until the next accept (R417). -/
def State.completeError (s : State) (kind : ErrorKind) (disk stripe : Word) : State :=
  { s with
    seq := .idle, done := true, err := true, errcode := some kind,
    errOpc := s.cmd, errDisk := disk, errStripe := stripe
    completions := s.recorded s.res (some (kind, disk, stripe)) }

/-- Accept (R73): CMD takes the word, the operands are latched, BUSY 1, DONE, ERR and ERRCODE 0. -/
def State.accept (s : State) (w : Word) : State :=
  { s with cmd := w, argl := s.args, seq := .exec [] .quiet, done := false, err := false, errcode := none }

/-! ## The BlockStore port (R105 to R110) -/

def Request.disk : Request → Nat
  | .read d _ _ _ => d
  | .write d _ _ _ => d

def Request.block : Request → Nat
  | .read _ blk _ _ => blk
  | .write _ blk _ _ => blk

def Request.off : Request → Nat
  | .read _ _ off _ => off
  | .write _ _ off _ => off

def Request.len : Request → Nat
  | .read _ _ _ len => len
  | .write _ _ _ bytes => bytes.length

def Request.isWrite : Request → Bool
  | .read _ _ _ _ => false
  | .write _ _ _ _ => true

/-- The error map of R109. -/
def storeError : StoreFailure → ErrorKind
  | .io => .storageIO
  | .config => .config
  | .bounds => .bounds

/-- The BlockStore's "offset+length > blockSize or disk/block index out of range" (R108), by its own geometry; where none is
stated nothing is out of range (log 18). -/
def State.inGeometry (s : State) (r : Request) : Bool :=
  match s.geometry with
  | none => true
  | some g => r.disk < g.disks && r.block < g.blocks && r.off + r.len ≤ g.bsize

/-- The BlockStore's next answer: the next of the inputs, or a free one where there is none (U5). -/
def State.takeAnswer (s : State) : Answer × State :=
  match s.answers with
  | a :: as => (a, { s with answers := as })
  | [] => (Config.freeAnswer s.draws, { s with draws := s.draws + 1 })

/-- `len` free bytes (U6). -/
def freeBytes (draw len : Nat) : Block := (List.range len).map (fun j => Config.freeByte (draw + j))

/-- The target bytes of a write that failed or was cut off become free (R107, R452, U6, U16); a read leaves no trace. -/
def State.spoil (s : State) : Request → State
  | .read _ _ _ _ => s
  | .write d blk off bytes =>
    { s with disk := s.diskWith d blk off (freeBytes s.draws bytes.length), draws := s.draws + bytes.length }

/-- A request that the BlockStore answers with OK (R106, R107). -/
def State.serve (s : State) : Request → State × Block
  | .read d blk off len => (s, s.diskBytes d blk off len)
  | .write d blk off bytes => ({ s with disk := s.diskWith d blk off bytes }, [])

/-- What the BlockStore does with the request under an input. Where a geometry is stated it alone decides between OK and
FAIL(BOUNDS): a request inside it is never answered FAIL(BOUNDS), one outside it never OK (R108, R461(a)). Where none is stated
both stay possible (R105, U5; log 18). -/
def State.verdict (s : State) (r : Request) : Answer → Answer
  | .ok => if s.inGeometry r then .ok else .fail .bounds
  | .fail .bounds => if s.geometry.isSome && s.inGeometry r then .ok else .fail .bounds
  | .fail .io => .fail .io
  | .fail .config => .fail .config
  | .silent => .silent

/-- What the verdict does to the store, and the response it makes; `none` where the BlockStore never answers. -/
def State.respond (s : State) (r : Request) (a : Answer) : State × Option Response :=
  match s.verdict r a with
  | .ok => ((s.serve r).1, some (.ok (s.serve r).2))
  | .fail kind => (s.spoil r, some (.fail kind))
  | .silent => (s, none)

/-- The sequencer after a response: it joins the scratch and the port is quiet; with none, the command is stalled (R77). -/
def advance (history : List Response) (r : Request) : Option Response → Sequencer
  | some resp => .exec (history ++ [resp]) .quiet
  | none => .exec history (.stalled r)

/-- One request issued and answered (R110), with the state and the response after it. -/
def State.receive (s : State) (r : Request) : State × Option Response :=
  let taken := s.takeAnswer
  let out := taken.2.respond r taken.1
  ({ out.1 with seq := advance s.history r out.2 }, out.2)

/-! ## A command as a program of requests (R14, R15, R110) -/

/-- What a command does: finish with its staged writes, raise an error with its context, stop the model, or ask the BlockStore
and go on with the bytes of the response (none for a WRITE). -/
inductive Prog where
  | done (e : Effects)
  | raise (kind : ErrorKind) (disk stripe : Word)
  | stop (f : Fault)
  | ask (r : Request) (k : Block → Prog)

/-- `raise map(kind)(d, blk)` of R106 and R107. -/
def Prog.storeFailed (r : Request) (kind : StoreFailure) : Prog :=
  .raise (storeError kind) (BitVec.ofNat 32 r.disk) (BitVec.ofNat 32 r.block)

/-- What is left of a program after the responses received so far. -/
def Prog.resume : Prog → List Response → Prog
  | .done e, _ => .done e
  | .raise kind d b, _ => .raise kind d b
  | .stop f, _ => .stop f
  | .ask r k, [] => .ask r k
  | .ask _ k, .ok bytes :: h => (k bytes).resume h
  | .ask r _, .fail kind :: _ => Prog.storeFailed r kind

/-- Run a program to its completion (R75, R76), or to a request that is never answered (R77). -/
def Prog.run : Prog → State → Host.Outcome State Fault Refusal
  | .done e, s => .next (s.complete e)
  | .raise kind d b, s => .next (s.completeError kind d b)
  | .stop f, _ => .fault f
  | .ask r k, s =>
    match s.receive r with
    | (t, some (.ok bytes)) => (k bytes).run t
    | (t, some (.fail kind)) =>
      .next (t.completeError (storeError kind) (BitVec.ofNat 32 r.disk) (BitVec.ofNat 32 r.block))
    | (t, none) => .next t

/-- A command run from where it stands: from its start after an accept, from its scratch where it has begun, and for ever
where it stands while its BlockStore request is never answered (R77). -/
def runCommand (p : Prog) (s : State) : Host.Outcome State Fault Refusal :=
  if s.isStalled then .next s else (p.resume s.history).run s

/-! ## Pieces of programs -/

/-- A block command or transfer that needs BUF[b][0..len-1]: a byte without a value stops the model (R242, U3). -/
def withBuffer (s : State) (b len : Nat) (k : Block → Prog) : Prog :=
  match s.bufBytes b 0 len with
  | some bytes => k bytes
  | none => .stop .unwrittenBuffer

/-- The buffers `first`, `first + 1`, ... of a PAR_COMPUTE (R248), `count` of them. -/
def withBuffers (s : State) (len : Nat) : Nat → Nat → (List Block → Prog) → Prog
  | _, 0, k => k []
  | first, count + 1, k =>
    withBuffer s first len fun d => withBuffers s len (first + 1) count fun ds => k (d :: ds)

/-- `BsRead(d, blk, off, len)` (R106). -/
def bsRead (d blk off len : Nat) (k : Block → Prog) : Prog := .ask (.read d blk off len) k

/-- `BsWrite(d, blk, off, len, bytes)` (R107). -/
def bsWrite (d blk off : Nat) (bytes : Block) (k : Prog) : Prog := .ask (.write d blk off bytes) fun _ => k

/-- A result word from a byte, zext_32 (R146). -/
def zextByte (b : Byte) : Word := b.setWidth 32

/-- A result word from a number. -/
def wordOf (n : Nat) : Word := BitVec.ofNat 32 n

end Sys2Proof.Machine
end

