-- ==== Sys2Proof/Machine/Flags.lean ====
section
/-! DEFINITION. The flags and the words software reads them in: error codes (R401), STATUS (R54), CTRL (R53), the interrupt
output (R71), PARAMS0 and PARAMS1 (R48, R49). -/

namespace Sys2Proof.Machine

/-- The codes of R401. -/
def errorCode : ErrorKind → BitVec 4
  | .config => 1#4
  | .bounds => 2#4
  | .layout => 3#4
  | .recoveryPrecondition => 4#4
  | .storageIO => 5#4
  | .illegalCommand => 6#4
  | .domain => 7#4

/-- STATUS.ERRCODE (R54): 0 where there is no error. -/
def State.errcodeBits (s : State) : BitVec 4 :=
  match s.errcode with
  | none => 0#4
  | some kind => errorCode kind

/-- The STATUS word (R54): BUSY bit 0, DONE bit 1, ERR bit 2, OVR bit 3, 7:4 zero, ERRCODE 11:8, 31:12 zero. -/
def State.statusWord (s : State) : Word :=
  0#20 ++ s.errcodeBits ++ 0#4 ++ BitVec.ofBool s.ovr ++ BitVec.ofBool s.err ++ BitVec.ofBool s.done ++
    BitVec.ofBool s.busy

/-- A host write to STATUS (R54): only DONE and OVR change, and only where the written bit is 1. -/
def State.writeStatus (s : State) (v : Word) : State :=
  { s with done := s.done && !v.getLsbD 1, ovr := s.ovr && !v.getLsbD 3 }

/-- The CTRL word (R53). -/
def State.ctrlWord (s : State) : Word := 0#31 ++ BitVec.ofBool s.irqEn

/-- A host write to CTRL (R53). -/
def State.writeCtrl (s : State) (v : Word) : State := { s with irqEn := v.getLsbD 0 }

/-- The IRQ output, a level: STATUS.DONE AND CTRL.IRQ_EN (R71, R415). -/
def State.irq (s : State) : Bool := s.done && s.irqEn

/-- STATUS.OVR set by a dropped host write (R74, R472). -/
def State.overrun (s : State) : State := { s with ovr := true }

/-- ID (R46). -/
def idWord : Word := 0x52364746#32

/-- VERSION (R47). -/
def versionWord : Word := 0x00010000#32

def parityModeBit : ParityMode → BitVec 1
  | .recompute => 0#1
  | .incremental => 1#1

/-- PARAMS0 (R48). -/
def paramsWord0 (p : Params) : Word :=
  0#13 ++ parityModeBit p.putParityMode ++ BitVec.ofBool p.invImpl ++ BitVec.ofBool p.mulImpl ++ 0#3 ++
    BitVec.ofNat 5 p.log2MaxBsize ++ BitVec.ofNat 8 p.nbuf

/-- PARAMS1 (R49). -/
def paramsWord1 (p : Params) : Word :=
  0#13 ++ BitVec.ofNat 3 p.lanesLog2 ++ BitVec.ofNat 8 p.invLat ++ BitVec.ofNat 8 p.mulLat

end Sys2Proof.Machine
end

