-- ==== Sys2Proof/Machine/HostPort.lean ====
section
/-! DEFINITION. The host port (R43 to R63, R100 to R103, R471 to R473): word reads and writes of the register map and of the
buffer window. An address is reduced to its offset from the port's base (R114). -/

namespace Sys2Proof.Machine

/-- The offset of a host address (R114; log 21). -/
def State.portOffset (s : State) (addr : Word) : Nat := (addr - s.params.portBase).toNat

/-- A word access needs addr[1:0] = 0 (R100, R103). -/
def isAligned (addr : Word) : Bool := addr.extractLsb' 0 2 == 0#2

/-- W0, the first offset of the buffer window (R101). -/
def windowBase : Nat := 0x10000

/-- The offset lies in the buffer window (R101). -/
def State.inWindow (s : State) (off : Nat) : Bool :=
  decide (windowBase ≤ off) && decide (off < windowBase + s.params.nbuf * s.params.maxBsize)

/-- The buffer of a window offset (R101). -/
def State.windowBuffer (s : State) (off : Nat) : Nat := (off - windowBase) / s.params.maxBsize

/-- The first byte index of a window offset (R101). -/
def State.windowIndex (s : State) (off : Nat) : Nat := (off - windowBase) % s.params.maxBsize

/-- The word in a register of the map of R44; a reserved offset reads 0 (R45). -/
def State.registerWord (s : State) (off : Nat) : Word :=
  if off = 0x000 then idWord
  else if off = 0x004 then versionWord
  else if off = 0x008 then paramsWord0 s.params
  else if off = 0x00C then paramsWord1 s.params
  else if off = 0x010 then s.cfgNdisks
  else if off = 0x014 then s.cfgNblocks
  else if off = 0x018 then s.cfgBsize
  else if off = 0x020 then s.ctrlWord
  else if off = 0x024 then s.statusWord
  else if off = 0x028 then s.cmd
  else if 0x040 ≤ off ∧ off < 0x060 then s.args[(off - 0x040) / 4]?.getD 0#32
  else if 0x060 ≤ off ∧ off < 0x070 then s.res[(off - 0x060) / 4]?.getD 0#32
  else if off = 0x070 then s.errOpc
  else if off = 0x074 then s.errDisk
  else if off = 0x078 then s.errStripe
  else 0#32

/-- Four bytes as a word, byte i in bits 8i+7:8i (R102). -/
def wordOfBytes : Block → Word
  | [b0, b1, b2, b3] => b3 ++ b2 ++ b1 ++ b0
  | _ => 0#32

/-- A word as four bytes, bits 7:0 first (R102). -/
def bytesOfWord (v : Word) : Block :=
  [v.extractLsb' 0 8, v.extractLsb' 8 8, v.extractLsb' 16 8, v.extractLsb' 24 8]

/-- The host's read data. -/
def State.returned (s : State) (v : Word) : State := { s with rdata := v }

/-- `MemRead(addr, 4)` (R100): a register, a window word, or, while BUSY = 1, a free word from the window (R471, U4). A window
byte without a value stops the model (R64, U3); a misaligned access has no step (R103). DESIGN CHOICE (log 30): where both R64
and R471 speak, a read while BUSY = 1 of a byte that nothing has written, the model follows R471: a free word and no fault. -/
def hostRead (s : State) (addr : Word) : Host.Outcome State Fault Refusal :=
  if !isAligned addr then .refused (.misalignedAccess addr)
  else
    let off := s.portOffset addr
    if s.inWindow off then
      if s.busy then .next { s with rdata := Config.freeWord s.draws, draws := s.draws + 1 }
      else
        match s.bufBytes (s.windowBuffer off) (s.windowIndex off) 4 with
        | some bytes => .next (s.returned (wordOfBytes bytes))
        | none => .fault .unwrittenBuffer
    else .next (s.returned (s.registerWord off))

/-- A host write to CMD: an accept while IDLE (R73), dropped with OVR set while BUSY = 1 (R74). -/
def State.writeCmd (s : State) (v : Word) : State := if s.busy then s.overrun else s.accept v

/-- A host write to ARGi (R57). -/
def State.writeArg (s : State) (i : Nat) (v : Word) : State := { s with args := s.args.setIfInBounds i v }

/-- A host write to a register: CTRL, STATUS, CMD and ARG take writes; every other offset ignores them (R43, R45). -/
def State.writeRegister (s : State) (off : Nat) (v : Word) : State :=
  if off = 0x020 then s.writeCtrl v
  else if off = 0x024 then s.writeStatus v
  else if off = 0x028 then s.writeCmd v
  else if 0x040 ≤ off ∧ off < 0x060 then s.writeArg ((off - 0x040) / 4) v
  else s

/-- A host write to the buffer window (R102); while BUSY = 1 it is dropped and sets OVR (R472). -/
def State.writeWindow (s : State) (off : Nat) (v : Word) : State :=
  if s.busy then s.overrun
  else { s with buf := s.bufWith (s.windowBuffer off) (s.windowIndex off) (bytesOfWord v) }

/-- `MemWrite(addr, 4, v)` (R100). -/
def hostWrite (s : State) (addr v : Word) : Host.Outcome State Fault Refusal :=
  if !isAligned addr then .refused (.misalignedAccess addr)
  else
    let off := s.portOffset addr
    if s.inWindow off then .next (s.writeWindow off v) else .next (s.writeRegister off v)

end Sys2Proof.Machine
end

