-- ==== Sys2Proof/WellFormed.lean ====
section
/-! DEFINITION. Which command words are well formed (R140, R147). An `Instr` has no operand fields, so there is nothing in the
instruction as syntax that could be ill formed: the checks stand on the word. -/

namespace Sys2Proof

/-- Bits 31:8 of a command word (RSVD) are 0 (R140). -/
def Word.reservedClear (w : Word) : Bool := w.extractLsb' 8 24 == 0#24

/-- Bits 7:0 of a command word are an assigned opcode: the ranges of R147's list of unassigned opcodes left out. -/
def Word.opcodeAssigned (w : Word) : Bool :=
  let o := (w.extractLsb' 0 8).toNat
  (0x01 ≤ o && o ≤ 0x04) || (0x10 ≤ o && o ≤ 0x15) || (0x20 ≤ o && o ≤ 0x23) || (0x30 ≤ o && o ≤ 0x33) ||
    (0x40 ≤ o && o ≤ 0x44) || o == 0x48

/-- A word is a command of this version exactly if both checks pass (R143, R147). -/
def Word.wellFormed (w : Word) : Bool := w.reservedClear && w.opcodeAssigned

end Sys2Proof
end

