-- ==== Sys2Proof/Decode.lean ====
section
/-! DEFINITION. Decoding a command word (R143, R144) and encoding a command. The table is a list of rows, each a pattern, a
mask and the command, as in R144. -/

namespace Sys2Proof

/-- Why a word is illegal (R143): its reserved bits are not 0, or its opcode is not assigned. -/
inductive DecodeError where
  | reservedBits
  | unassignedOpcode
  deriving DecidableEq, Repr

/-- One row of R144: a word is this command if it equals `pattern` on the bits of `mask`. -/
structure OpcodeRow where
  pattern : Word
  mask : Word
  instr : Instr
  deriving DecidableEq, Repr

/-- R144: "match = OPC and mask = 0xFFFFFFFF". -/
def opcodeRow (opc : Nat) (i : Instr) : OpcodeRow := ⟨BitVec.ofNat 32 opc, 0xFFFFFFFF#32, i⟩

def opcodeTableGf : List OpcodeRow :=
  [opcodeRow 0x01 .gfMul, opcodeRow 0x02 .gfPow, opcodeRow 0x03 .gfInv, opcodeRow 0x04 .gfSolve2]

def opcodeTableBlock : List OpcodeRow :=
  [opcodeRow 0x10 .blkXor, opcodeRow 0x11 .blkScale, opcodeRow 0x12 .parComputeP, opcodeRow 0x13 .parComputeQ,
   opcodeRow 0x14 .parUpdateP, opcodeRow 0x15 .parUpdateQ]

def opcodeTableLayout : List OpcodeRow :=
  [opcodeRow 0x20 .layPdiskP, opcodeRow 0x21 .layPdiskQ, opcodeRow 0x22 .layIspar, opcodeRow 0x23 .layResolve]

def opcodeTableStorage : List OpcodeRow :=
  [opcodeRow 0x30 .init, opcodeRow 0x31 .put, opcodeRow 0x32 .putraw, opcodeRow 0x33 .get]

def opcodeTableRecovery : List OpcodeRow :=
  [opcodeRow 0x40 .recSingleData, opcodeRow 0x41 .recSingleParity, opcodeRow 0x42 .recDoubleData,
   opcodeRow 0x43 .recDoubleParity, opcodeRow 0x44 .recDataAndParity, opcodeRow 0x48 .check]

/-- The opcode map of R144. -/
def opcodeTable : List OpcodeRow :=
  opcodeTableGf ++ opcodeTableBlock ++ opcodeTableLayout ++ opcodeTableStorage ++ opcodeTableRecovery

/-- Does the word match the row? -/
def OpcodeRow.accepts (r : OpcodeRow) (w : Word) : Bool := (w &&& r.mask) == r.pattern

/-- R143: decoding is total. A word with bits 31:8 not all 0 is illegal, else one whose opcode is not in the table is illegal,
else it is the command the table names. -/
def decode (w : Word) : Except DecodeError Instr :=
  if w.reservedClear then
    match opcodeTable.find? (fun r => r.accepts w) with
    | some r => .ok r.instr
    | none => .error .unassignedOpcode
  else .error .reservedBits

/-- The opcode of a command, the column OPC of R144. -/
def opcode : Instr → Nat
  | .gfMul => 0x01 | .gfPow => 0x02 | .gfInv => 0x03 | .gfSolve2 => 0x04
  | .blkXor => 0x10 | .blkScale => 0x11 | .parComputeP => 0x12 | .parComputeQ => 0x13
  | .parUpdateP => 0x14 | .parUpdateQ => 0x15
  | .layPdiskP => 0x20 | .layPdiskQ => 0x21 | .layIspar => 0x22 | .layResolve => 0x23
  | .init => 0x30 | .put => 0x31 | .putraw => 0x32 | .get => 0x33
  | .recSingleData => 0x40 | .recSingleParity => 0x41 | .recDoubleData => 0x42
  | .recDoubleParity => 0x43 | .recDataAndParity => 0x44 | .check => 0x48

/-- R140: OPC in bits 7:0 and zeros in bits 31:8. -/
def encode (i : Instr) : Word := 0#24 ++ BitVec.ofNat 8 (opcode i)

/-- The command my decoder reads from a table word: the word is its low `nbits` bits, every bit above is 0. -/
def decodeTableWord (nbits w : Nat) : Option Instr :=
  match decode (BitVec.ofNat 32 (w % 2 ^ nbits)) with
  | .ok i => some i
  | .error _ => none

end Sys2Proof
end

