-- ==== Sys2Proof/Machine/Blocks.lean ====
section
/-! DEFINITION. Functions on blocks (R13, R240 to R245): XOR, scaling, the two parities and the two incremental updates. -/

namespace Sys2Proof.Machine

/-- A block of `len` zero bytes. -/
def zeroBlock (len : Nat) : Block := List.replicate len 0#8

/-- `xor_block(X, Y)` (R240). -/
def xorBlock (x y : Block) : Block := List.zipWith (fun a b => a ^^^ b) x y

/-- `scale_block(X, c)` (R240): byte i is gf_mul(c, X[i]). -/
def scaleBlock (x : Block) (c : Byte) : Block := x.map (gfMul c)

/-- `p_parity(D_0, ..., D_{k-1})` (R243) of blocks of `len` bytes. -/
def pParity (len : Nat) : List Block → Block
  | [] => zeroBlock len
  | d :: ds => xorBlock d (pParity len ds)

/-- The terms of `q_parity` from input number `j` on: input j gets the coefficient g^j (R244). -/
def qParityFrom (len : Nat) : Nat → List Block → Block
  | _, [] => zeroBlock len
  | j, d :: ds => xorBlock (scaleBlock d (gfPow j)) (qParityFrom len (j + 1) ds)

/-- `q_parity(D_0, ..., D_{k-1})` (R244) of blocks of `len` bytes. -/
def qParity (len : Nat) (ds : List Block) : Block := qParityFrom len 0 ds

/-- `p_update(O, N, R)` (R245). -/
def pUpdate (old new par : Block) : Block := xorBlock (xorBlock par old) new

/-- `q_update(O, N, R, k)` (R245): the coefficient g^k applies at every byte. -/
def qUpdate (old new par : Block) (k : Int) : Block :=
  xorBlock (xorBlock par (scaleBlock old (gfPow k))) (scaleBlock new (gfPow k))

/-- `D[off .. off+len-1] <- X` on a block in scratch (R362). -/
def overwrite (d : Block) (off : Nat) (x : Block) : Block := d.take off ++ x ++ d.drop (off + x.length)

/-- The two blocks of REC_DOUBLE_DATA (R315): solve2 at every byte, with the coefficients (A, B) given. -/
def solveBlocks (ab : Byte × Byte) (pd qd : Block) : Block × Block :=
  (List.zipWith (fun p q => (solveWith ab p q).1) pd qd, List.zipWith (fun p q => (solveWith ab p q).2) pd qd)

end Sys2Proof.Machine
end

