-- ==== Sys2Proof/Machine/Operands.lean ====
section
/-! DEFINITION. The operand forms (R145, R146): how each command reads the latched operand registers. -/

namespace Sys2Proof.Machine

/-- `ARG[i]` of the command rules: the value latched at accept (R14, R56). -/
def State.argLatched (s : State) (i : Fin 8) : Word := s.argl.get i

/-- `u(ARGi)`: the whole unsigned 32 bits, no masking (R145, R146). -/
def State.u (s : State) (i : Fin 8) : Nat := (s.argLatched i).toNat

/-- `s(ARGi)`: the signed 32-bit value (R145). -/
def State.sgn (s : State) (i : Fin 8) : Int := (s.argLatched i).toInt

/-- `b(ARGi)`: bits 7:0; bits 31:8 are ignored (R145). -/
def State.b (s : State) (i : Fin 8) : Byte := (s.argLatched i).extractLsb' 0 8

/-- O-GF2. -/
structure OperandsGf2 where
  a : Byte
  b : Byte

def State.operandsGf2 (s : State) : OperandsGf2 := ⟨s.b 0, s.b 1⟩

/-- O-GFE. -/
structure OperandsGfe where
  n : Int

def State.operandsGfe (s : State) : OperandsGfe := ⟨s.sgn 0⟩

/-- O-GF1. -/
structure OperandsGf1 where
  a : Byte

def State.operandsGf1 (s : State) : OperandsGf1 := ⟨s.b 0⟩

/-- O-GF4. -/
structure OperandsGf4 where
  x : Byte
  y : Byte
  pd : Byte
  qd : Byte

def State.operandsGf4 (s : State) : OperandsGf4 := ⟨s.b 0, s.b 1, s.b 2, s.b 3⟩

/-- O-BX. -/
structure OperandsBx where
  dst : Nat
  srcA : Nat
  srcB : Nat
  len : Nat

def State.operandsBx (s : State) : OperandsBx := ⟨s.u 0, s.u 1, s.u 2, s.u 3⟩

/-- O-BS. -/
structure OperandsBs where
  dst : Nat
  src : Nat
  c : Byte
  len : Nat

def State.operandsBs (s : State) : OperandsBs := ⟨s.u 0, s.u 1, s.b 2, s.u 3⟩

/-- O-PC. -/
structure OperandsPc where
  dst : Nat
  first : Nat
  count : Nat
  len : Nat

def State.operandsPc (s : State) : OperandsPc := ⟨s.u 0, s.u 1, s.u 2, s.u 3⟩

/-- O-PUP. -/
structure OperandsPup where
  dst : Nat
  oldD : Nat
  newD : Nat
  oldPar : Nat
  len : Nat

def State.operandsPup (s : State) : OperandsPup := ⟨s.u 0, s.u 1, s.u 2, s.u 3, s.u 4⟩

/-- O-PUQ: O-PUP and the signed exponent k. -/
structure OperandsPuq where
  dst : Nat
  oldD : Nat
  newD : Nat
  oldPar : Nat
  len : Nat
  k : Int

def State.operandsPuq (s : State) : OperandsPuq := ⟨s.u 0, s.u 1, s.u 2, s.u 3, s.u 4, s.sgn 5⟩

/-- O-L1. -/
structure OperandsL1 where
  stripe : Nat

def State.operandsL1 (s : State) : OperandsL1 := ⟨s.u 0⟩

/-- O-L2. -/
structure OperandsL2 where
  d : Nat
  stripe : Nat

def State.operandsL2 (s : State) : OperandsL2 := ⟨s.u 0, s.u 1⟩

/-- O-L2R. -/
structure OperandsL2r where
  d : Nat
  pos : Nat

def State.operandsL2r (s : State) : OperandsL2r := ⟨s.u 0, s.u 1⟩

/-- O-INIT. -/
structure OperandsInit where
  n : Nat
  nb : Nat
  bs : Nat

def State.operandsInit (s : State) : OperandsInit := ⟨s.u 0, s.u 1, s.u 2⟩

/-- O-XFER. -/
structure OperandsXfer where
  d : Nat
  pos : Nat
  len : Nat
  buf : Nat

def State.operandsXfer (s : State) : OperandsXfer := ⟨s.u 0, s.u 1, s.u 2, s.u 3⟩

/-- O-REC. O-NONE reads nothing and needs no form. -/
structure OperandsRec where
  cnt : Nat
  d0 : Nat
  s0 : Nat
  d1 : Nat
  s1 : Nat

def State.operandsRec (s : State) : OperandsRec := ⟨s.u 0, s.u 1, s.u 2, s.u 3, s.u 4⟩

end Sys2Proof.Machine
end

