-- ==== Sys2Proof/Machine/BlockCommands.lean ====
section
/-! DEFINITION. The block and parity commands (R241, R242, R246 to R251). Every one checks its operands (R241), reads every
source byte (R242), and stages one buffer write, BUF[dst][0..len-1]. -/

namespace Sys2Proof.Machine

/-- R241: the program goes on if every check holds, and raises BoundsError(F, F) otherwise. The checks all raise the same
error with the same context, so their order cannot be seen. -/
def blockChecks (ok : Bool) (k : Prog) : Prog :=
  if ok then k else .raise .bounds noContext noContext

/-- A buffer operand is a buffer (R241). -/
def State.isBuffer (s : State) (b : Nat) : Bool := decide (b < s.params.nbuf)

/-- 1 <= len <= MAX_BSIZE (R241). -/
def State.blockLenOk (s : State) (len : Nat) : Bool := decide (1 ≤ len) && decide (len ≤ s.params.maxBsize)

/-- The result block, staged for BUF[dst][0..len-1]. -/
def storeBlock (dst : Nat) (t : Block) : Prog := .done { buf := some (dst, t) }

/-- BLK_XOR (R246). -/
def blkXorProgram (s : State) : Prog :=
  let o := s.operandsBx
  blockChecks (s.isBuffer o.dst && s.isBuffer o.srcA && s.isBuffer o.srcB && s.blockLenOk o.len) <|
  withBuffer s o.srcA o.len fun x =>
  withBuffer s o.srcB o.len fun y =>
  storeBlock o.dst (xorBlock x y)

def execBlkXor (s : State) : Host.Outcome State Fault Refusal := runCommand (blkXorProgram s) s

/-- BLK_SCALE (R247). -/
def blkScaleProgram (s : State) : Prog :=
  let o := s.operandsBs
  blockChecks (s.isBuffer o.dst && s.isBuffer o.src && s.blockLenOk o.len) <|
  withBuffer s o.src o.len fun x =>
  storeBlock o.dst (scaleBlock x o.c)

def execBlkScale (s : State) : Host.Outcome State Fault Refusal := runCommand (blkScaleProgram s) s

/-- The checks of PAR_COMPUTE_P and PAR_COMPUTE_Q (R241, R248): the sum is computed without overflow. -/
def State.computeOk (s : State) (o : OperandsPc) : Bool :=
  s.isBuffer o.dst && s.isBuffer o.first && decide (1 ≤ o.count) && decide (o.first + o.count ≤ s.params.nbuf) &&
    s.blockLenOk o.len

/-- PAR_COMPUTE_P (R248). -/
def parComputePProgram (s : State) : Prog :=
  let o := s.operandsPc
  blockChecks (s.computeOk o) <|
  withBuffers s o.len o.first o.count fun ds =>
  storeBlock o.dst (pParity o.len ds)

def execParComputeP (s : State) : Host.Outcome State Fault Refusal := runCommand (parComputePProgram s) s

/-- PAR_COMPUTE_Q (R249): the coefficient follows the position in the list. -/
def parComputeQProgram (s : State) : Prog :=
  let o := s.operandsPc
  blockChecks (s.computeOk o) <|
  withBuffers s o.len o.first o.count fun ds =>
  storeBlock o.dst (qParity o.len ds)

def execParComputeQ (s : State) : Host.Outcome State Fault Refusal := runCommand (parComputeQProgram s) s

/-- The checks of PAR_UPDATE_P and PAR_UPDATE_Q (R241, R250). -/
def State.updateOk (s : State) (dst oldD newD oldPar len : Nat) : Bool :=
  s.isBuffer dst && s.isBuffer oldD && s.isBuffer newD && s.isBuffer oldPar && s.blockLenOk len

/-- PAR_UPDATE_P (R250). -/
def parUpdatePProgram (s : State) : Prog :=
  let o := s.operandsPup
  blockChecks (s.updateOk o.dst o.oldD o.newD o.oldPar o.len) <|
  withBuffer s o.oldD o.len fun old =>
  withBuffer s o.newD o.len fun new =>
  withBuffer s o.oldPar o.len fun par =>
  storeBlock o.dst (pUpdate old new par)

def execParUpdateP (s : State) : Host.Outcome State Fault Refusal := runCommand (parUpdatePProgram s) s

/-- PAR_UPDATE_Q (R251): ARG5 is not checked. -/
def parUpdateQProgram (s : State) : Prog :=
  let o := s.operandsPuq
  blockChecks (s.updateOk o.dst o.oldD o.newD o.oldPar o.len) <|
  withBuffer s o.oldD o.len fun old =>
  withBuffer s o.newD o.len fun new =>
  withBuffer s o.oldPar o.len fun par =>
  storeBlock o.dst (qUpdate old new par o.k)

def execParUpdateQ (s : State) : Host.Outcome State Fault Refusal := runCommand (parUpdateQProgram s) s

end Sys2Proof.Machine
end

