-- ==== Sys2Proof/Machine/GfCommands.lean ====
section
/-! DEFINITION. The scalar GF commands: GF_MUL, GF_POW, GF_INV, GF_SOLVE2 (R210 to R212, R214). -/

namespace Sys2Proof.Machine

/-- GF_MUL (R210). -/
def gfMulProgram (s : State) : Prog :=
  let o := s.operandsGf2
  .done { res := [(0, zextByte (gfMul o.a o.b))] }

def execGfMul (s : State) : Host.Outcome State Fault Refusal := runCommand (gfMulProgram s) s

/-- GF_POW (R211). -/
def gfPowProgram (s : State) : Prog :=
  let o := s.operandsGfe
  .done { res := [(0, zextByte (gfPow o.n))] }

def execGfPow (s : State) : Host.Outcome State Fault Refusal := runCommand (gfPowProgram s) s

/-- GF_INV (R212): DomainError where the operand is 0 (R208, R412). -/
def gfInvProgram (s : State) : Prog :=
  let o := s.operandsGf1
  match gfInv o.a with
  | none => .raise .domain noContext noContext
  | some c => .done { res := [(0, zextByte c)] }

def execGfInv (s : State) : Host.Outcome State Fault Refusal := runCommand (gfInvProgram s) s

/-- GF_SOLVE2 (R214): DomainError where x = y (mod 255) (R412). -/
def gfSolve2Program (s : State) : Prog :=
  let o := s.operandsGf4
  let x : Int := o.x.toNat
  let y : Int := o.y.toNat
  if x % 255 = y % 255 then .raise .domain noContext noContext
  else
    match ddCoeffs x y with
    | none => .stop .singularSystem
    | some ab =>
      let d := solveWith ab o.pd o.qd
      .done { res := [(0, zextByte d.1), (1, zextByte d.2), (2, zextByte ab.1), (3, zextByte ab.2)] }

def execGfSolve2 (s : State) : Host.Outcome State Fault Refusal := runCommand (gfSolve2Program s) s

end Sys2Proof.Machine
end

