-- ==== Sys2Proof/Machine/Layout.lean ====
section
/-! DEFINITION. The layout functions (R280 to R286), on exact integers (R280). -/

namespace Sys2Proof.Machine

/-- `parity_disk(s, p)` (R281): ((s+1)(n-1) - 1 + p) mod n, with the Euclidean mod. -/
def parityDisk (n s p : Nat) : Nat := ((((s : Int) + 1) * ((n : Int) - 1) - 1 + p) % n).toNat

/-- `is_parity(d, s)` (R282). -/
def isParity (n d s : Nat) : Bool := d == parityDisk n s 0 || d == parityDisk n s 1

/-- `data_disks(s)` (R283), ascending. -/
def dataDisks (n s : Nat) : List Nat := (List.range n).filter (fun d => !isParity n d s)

/-- `ordinal(d, s)` (R283): d minus the number of parity disks of stripe s that are less than d. -/
def ordinal (n d s : Nat) : Nat :=
  d - (if parityDisk n s 0 < d then 1 else 0) - (if parityDisk n s 1 < d then 1 else 0)

/-- The residues of the stripes in which disk d holds data, ascending: the list E of R286. -/
def dataResidues (n d : Nat) : List Nat :=
  (List.range n).filter (fun e => ((n : Int) - 2 - d) % n != e && ((n : Int) - 1 - d) % n != e)

/-- `resolve(d, pos)` (R285): the stripe and the offset. Computed by the closed form of R286, which the walk of R285 equals
("An implementation may use either form. Only the result is architectural"; log 12). -/
def resolve (n bs d pos : Nat) : Nat × Nat :=
  let k := pos / bs
  ((k / (n - 2)) * n + (dataResidues n d).getD (k % (n - 2)) 0, pos % bs)

/-- The linear walk of R285 from stripe `s` with `c` eligible stripes passed, looking for number `k`; `fuel` bounds the
number of stripes it may look at. -/
def resolveWalk (n d k : Nat) : Nat → Nat → Nat → Option Nat
  | 0, _, _ => none
  | fuel + 1, s, c =>
    if isParity n d s then resolveWalk n d k fuel (s + 1) c
    else if c = k then some s
    else resolveWalk n d k fuel (s + 1) (c + 1)

end Sys2Proof.Machine
end

