-- ==== Sys2Proof/Machine/LayoutCommands.lean ====
section
/-! DEFINITION. The layout commands: LAY_PDISK_P, LAY_PDISK_Q, LAY_ISPAR, LAY_RESOLVE (R287 to R291). -/

namespace Sys2Proof.Machine

/-- Check 1 of R287, R310 and R360, and the check of CHECK (R340): a core with CFG_NDISKS < 3 is not configured (R407(a)). -/
def whenConfigured (s : State) (k : Prog) : Prog :=
  if s.n < 3 then .raise .layout noContext noContext else k

/-- Check 2 of R287: the disk operand (R407(c)). -/
def whenDisk (s : State) (d : Nat) (k : Prog) : Prog :=
  if s.n ≤ d then .raise .layout (wordOf d) noContext else k

/-- Check 3 of R287: the stripe operand, with the disk context given (R407(d)). -/
def whenStripe (s : State) (disk : Word) (stripe : Nat) (k : Prog) : Prog :=
  if s.nb ≤ stripe then .raise .layout disk (wordOf stripe) else k

/-- The stripe context of a resolved stripe: itself, or F from 2^32 on (R291, R360, R403). -/
def stripeContext (stripe : Nat) : Word := if stripe < 2 ^ 32 then wordOf stripe else noContext

/-- LAY_PDISK_P (R288). -/
def layPdiskPProgram (s : State) : Prog :=
  let o := s.operandsL1
  whenConfigured s <|
  whenStripe s noContext o.stripe <|
  .done { res := [(0, wordOf (parityDisk s.n o.stripe 0))] }

def execLayPdiskP (s : State) : Host.Outcome State Fault Refusal := runCommand (layPdiskPProgram s) s

/-- LAY_PDISK_Q (R289). -/
def layPdiskQProgram (s : State) : Prog :=
  let o := s.operandsL1
  whenConfigured s <|
  whenStripe s noContext o.stripe <|
  .done { res := [(0, wordOf (parityDisk s.n o.stripe 1))] }

def execLayPdiskQ (s : State) : Host.Outcome State Fault Refusal := runCommand (layPdiskQProgram s) s

/-- LAY_ISPAR (R290): RES1 is the policy of a parity block, the ordinal of a data block. -/
def layIsparProgram (s : State) : Prog :=
  let o := s.operandsL2
  whenConfigured s <|
  whenDisk s o.d <|
  whenStripe s (wordOf o.d) o.stripe <|
  if isParity s.n o.d o.stripe then
    .done { res := [(0, 1#32), (1, if o.d = parityDisk s.n o.stripe 0 then 0#32 else 1#32)] }
  else
    .done { res := [(0, 0#32), (1, wordOf (ordinal s.n o.d o.stripe))] }

def execLayIspar (s : State) : Host.Outcome State Fault Refusal := runCommand (layIsparProgram s) s

/-- LAY_RESOLVE (R291). -/
def layResolveProgram (s : State) : Prog :=
  let o := s.operandsL2r
  whenConfigured s <|
  whenDisk s o.d <|
  let at_ := resolve s.n s.bs o.d o.pos
  if s.nb ≤ at_.1 then .raise .bounds (wordOf o.d) (stripeContext at_.1)
  else .done { res := [(0, wordOf at_.1), (1, wordOf at_.2)] }

def execLayResolve (s : State) : Host.Outcome State Fault Refusal := runCommand (layResolveProgram s) s

end Sys2Proof.Machine
end

