-- ==== Sys2Proof/Machine/StorageCommands.lean ====
section
/-! DEFINITION. The storage commands: INIT, PUT, PUTRAW, GET (R360 to R365), and `read_data` (R311), which PUT shares with the
recovery commands. -/

namespace Sys2Proof.Machine

/-- INIT (R361): the geometry is applied at completion; no BlockStore request is made. -/
def initProgram (s : State) : Prog :=
  let o := s.operandsInit
  if o.n < 3 ∨ maxDisks < o.n then .raise .layout noContext noContext
  else if o.nb = 0 ∨ o.bs = 0 ∨ s.params.maxBsize < o.bs then .raise .config noContext noContext
  else .done { cfg := some (wordOf o.n, wordOf o.nb, wordOf o.bs) }

def execInit (s : State) : Host.Outcome State Fault Refusal := runCommand (initProgram s) s

/-- `read_data(s, skip)` (R311) over a list of data disks: one whole-block read for each that is not skipped, in the order of
the list; a skipped disk's slot holds zeros. -/
def readData (bs stripe : Nat) (skip : List Nat) : List Nat → (List Block → Prog) → Prog
  | [], k => k []
  | d :: ds, k =>
    if skip.contains d then readData bs stripe skip ds fun rest => k (zeroBlock bs :: rest)
    else bsRead d stripe 0 bs fun b => readData bs stripe skip ds fun rest => k (b :: rest)

/-- The checks of R360, in its order; the program goes on with the stripe and the offset. -/
def transferChecks (s : State) (o : OperandsXfer) (k : Nat → Nat → Prog) : Prog :=
  whenConfigured s <|
  whenDisk s o.d <|
  if o.len = 0 ∨ s.bs < o.len then .raise .bounds (wordOf o.d) noContext
  else if s.params.nbuf ≤ o.buf then .raise .bounds (wordOf o.d) noContext
  else
    let at_ := resolve s.n s.bs o.d o.pos
    if s.nb ≤ at_.1 then .raise .bounds (wordOf o.d) (stripeContext at_.1)
    else if s.bs < at_.2 + o.len then .raise .bounds (wordOf o.d) (wordOf at_.1)
    else k at_.1 at_.2

/-- RES[0] <- s ; RES[1] <- off (R362 to R365). -/
def transferDone (stripe off : Nat) : Prog := .done { res := [(0, wordOf stripe), (1, wordOf off)] }

/-- PUT with PUT_PARITY_MODE = 0 (R362). -/
def putRecompute (s : State) (o : OperandsXfer) (stripe off : Nat) : Prog :=
  readData s.bs stripe [] (dataDisks s.n stripe) fun ds =>
  withBuffer s o.buf o.len fun x =>
  let new := ds.modify (ordinal s.n o.d stripe) (fun d => overwrite d off x)
  bsWrite o.d stripe off x <|
  bsWrite (parityDisk s.n stripe 0) stripe 0 (pParity s.bs new) <|
  bsWrite (parityDisk s.n stripe 1) stripe 0 (qParity s.bs new) <|
  transferDone stripe off

/-- PUT with PUT_PARITY_MODE = 1 (R363). -/
def putIncremental (s : State) (o : OperandsXfer) (stripe off : Nat) : Prog :=
  bsRead o.d stripe off o.len fun old =>
  bsRead (parityDisk s.n stripe 0) stripe off o.len fun oldP =>
  bsRead (parityDisk s.n stripe 1) stripe off o.len fun oldQ =>
  withBuffer s o.buf o.len fun x =>
  bsWrite o.d stripe off x <|
  bsWrite (parityDisk s.n stripe 0) stripe off (pUpdate old x oldP) <|
  bsWrite (parityDisk s.n stripe 1) stripe off (qUpdate old x oldQ (ordinal s.n o.d stripe)) <|
  transferDone stripe off

/-- PUT: "The mode is the build parameter, not the opcode" (R363). -/
def putProgram (s : State) : Prog :=
  let o := s.operandsXfer
  transferChecks s o fun stripe off =>
  match s.params.putParityMode with
  | .recompute => putRecompute s o stripe off
  | .incremental => putIncremental s o stripe off

def execPut (s : State) : Host.Outcome State Fault Refusal := runCommand (putProgram s) s

/-- PUTRAW (R364). -/
def putrawProgram (s : State) : Prog :=
  let o := s.operandsXfer
  transferChecks s o fun stripe off =>
  withBuffer s o.buf o.len fun x =>
  bsWrite o.d stripe off x <|
  transferDone stripe off

def execPutraw (s : State) : Host.Outcome State Fault Refusal := runCommand (putrawProgram s) s

/-- GET (R365): BUF[buf][0..len-1] is written at completion. -/
def getProgram (s : State) : Prog :=
  let o := s.operandsXfer
  transferChecks s o fun stripe off =>
  bsRead o.d stripe off o.len fun y =>
  .done { res := [(0, wordOf stripe), (1, wordOf off)], buf := some (o.buf, y.take o.len) }

def execGet (s : State) : Host.Outcome State Fault Refusal := runCommand (getProgram s) s

end Sys2Proof.Machine
end

