-- ==== Sys2Proof/Machine/RecoveryCommands.lean ====
section
/-! DEFINITION. The recovery commands and the scrub (R310 to R317, R340). -/

namespace Sys2Proof.Machine

/-- The checks 1 to 6 of R310 for a case that needs one block; the program goes on with the role check. -/
def recoveryChecksOne (s : State) (o : OperandsRec) (k : Prog) : Prog :=
  whenConfigured s <|
  if o.cnt ≠ 1 then .raise .recoveryPrecondition noContext noContext
  else whenDisk s o.d0 <| whenStripe s (wordOf o.d0) o.s0 k

/-- The checks 1 to 6 of R310 for a case that needs two blocks. -/
def recoveryChecksTwo (s : State) (o : OperandsRec) (k : Prog) : Prog :=
  whenConfigured s <|
  if o.cnt ≠ 2 then .raise .recoveryPrecondition noContext noContext
  else
    whenDisk s o.d0 <| whenDisk s o.d1 <|
    if o.s1 ≠ o.s0 then .raise .recoveryPrecondition (wordOf o.d1) (wordOf o.s1)
    else if o.d1 = o.d0 then .raise .recoveryPrecondition (wordOf o.d1) (wordOf o.s1)
    else whenStripe s (wordOf o.d0) o.s0 k

/-- Check 7 of R310, "wrong block roles", with the disk of the error. -/
def whenRole (ok : Bool) (d stripe : Nat) (k : Prog) : Prog :=
  if ok then k else .raise .recoveryPrecondition (wordOf d) (wordOf stripe)

/-- RES[0] <- the number of blocks written (R319). -/
def recoveryDone (blocks : Nat) : Prog := .done { res := [(0, wordOf blocks)] }

/-- REC_SINGLE_DATA (R313). -/
def recSingleDataProgram (s : State) : Prog :=
  let o := s.operandsRec
  recoveryChecksOne s o <|
  whenRole (!isParity s.n o.d0 o.s0) o.d0 o.s0 <|
  readData s.bs o.s0 [o.d0] (dataDisks s.n o.s0) fun ds =>
  bsRead (parityDisk s.n o.s0 0) o.s0 0 s.bs fun pb =>
  bsWrite o.d0 o.s0 0 (xorBlock pb (pParity s.bs ds)) <|
  recoveryDone 1

def execRecSingleData (s : State) : Host.Outcome State Fault Refusal := runCommand (recSingleDataProgram s) s

/-- REC_SINGLE_PARITY (R314). -/
def recSingleParityProgram (s : State) : Prog :=
  let o := s.operandsRec
  recoveryChecksOne s o <|
  whenRole (isParity s.n o.d0 o.s0) o.d0 o.s0 <|
  readData s.bs o.s0 [] (dataDisks s.n o.s0) fun ds =>
  bsWrite o.d0 o.s0 0 (if o.d0 = parityDisk s.n o.s0 0 then pParity s.bs ds else qParity s.bs ds) <|
  recoveryDone 1

def execRecSingleParity (s : State) : Host.Outcome State Fault Refusal := runCommand (recSingleParityProgram s) s

/-- REC_DOUBLE_DATA (R315): x is the ordinal of the first listed pair (D22). -/
def recDoubleDataProgram (s : State) : Prog :=
  let o := s.operandsRec
  recoveryChecksTwo s o <|
  whenRole (!isParity s.n o.d0 o.s0) o.d0 o.s0 <|
  whenRole (!isParity s.n o.d1 o.s0) o.d1 o.s0 <|
  readData s.bs o.s0 [o.d0, o.d1] (dataDisks s.n o.s0) fun ds =>
  bsRead (parityDisk s.n o.s0 0) o.s0 0 s.bs fun pb =>
  bsRead (parityDisk s.n o.s0 1) o.s0 0 s.bs fun qb =>
  match ddCoeffs (ordinal s.n o.d0 o.s0) (ordinal s.n o.d1 o.s0) with
  | none => .stop .singularSystem
  | some ab =>
    let xy := solveBlocks ab (xorBlock pb (pParity s.bs ds)) (xorBlock qb (qParity s.bs ds))
    bsWrite o.d0 o.s0 0 xy.1 <|
    bsWrite o.d1 o.s0 0 xy.2 <|
    recoveryDone 2

def execRecDoubleData (s : State) : Host.Outcome State Fault Refusal := runCommand (recDoubleDataProgram s) s

/-- REC_DOUBLE_PARITY (R316): P is written first whatever the list order. -/
def recDoubleParityProgram (s : State) : Prog :=
  let o := s.operandsRec
  recoveryChecksTwo s o <|
  whenRole (isParity s.n o.d0 o.s0) o.d0 o.s0 <|
  whenRole (isParity s.n o.d1 o.s0) o.d1 o.s0 <|
  readData s.bs o.s0 [] (dataDisks s.n o.s0) fun ds =>
  bsWrite (parityDisk s.n o.s0 0) o.s0 0 (pParity s.bs ds) <|
  bsWrite (parityDisk s.n o.s0 1) o.s0 0 (qParity s.bs ds) <|
  recoveryDone 2

def execRecDoubleParity (s : State) : Host.Outcome State Fault Refusal := runCommand (recDoubleParityProgram s) s

/-- The two writes of REC_DATA_AND_PARITY, data before parity (R317). -/
def dataAndParityWrites (dd pp stripe : Nat) (r np : Block) : Prog :=
  bsWrite dd stripe 0 r <| bsWrite pp stripe 0 np <| recoveryDone 2

/-- REC_DATA_AND_PARITY (R317): the XOR branch where Q is lost, the RS branch where P is lost. -/
def recDataAndParityProgram (s : State) : Prog :=
  let o := s.operandsRec
  recoveryChecksTwo s o <|
  whenRole (isParity s.n o.d0 o.s0 != isParity s.n o.d1 o.s0) o.d1 o.s0 <|
  let dd := if isParity s.n o.d0 o.s0 then o.d1 else o.d0
  let pp := if isParity s.n o.d0 o.s0 then o.d0 else o.d1
  let x := ordinal s.n dd o.s0
  readData s.bs o.s0 [dd] (dataDisks s.n o.s0) fun ds =>
  if pp = parityDisk s.n o.s0 1 then
    bsRead (parityDisk s.n o.s0 0) o.s0 0 s.bs fun pb =>
    let r := xorBlock pb (pParity s.bs ds)
    dataAndParityWrites dd pp o.s0 r (qParity s.bs (ds.set x r))
  else
    bsRead (parityDisk s.n o.s0 1) o.s0 0 s.bs fun qb =>
    let r := scaleBlock (xorBlock qb (qParity s.bs ds)) (gfPow (-(x : Int)))
    dataAndParityWrites dd pp o.s0 r (pParity s.bs (ds.set x r))

def execRecDataAndParity (s : State) : Host.Outcome State Fault Refusal := runCommand (recDataAndParityProgram s) s

/-- The loop of CHECK (R340): `left` stripes still to look at, from `stripe` on. -/
def checkFrom (n bs : Nat) : Nat → Nat → Prog
  | 0, _ => .done { res := [(0, 0#32), (1, 0#32)] }
  | left + 1, stripe =>
    readData bs stripe [] (dataDisks n stripe) fun ds =>
    bsRead (parityDisk n stripe 0) stripe 0 bs fun pb =>
    bsRead (parityDisk n stripe 1) stripe 0 bs fun qb =>
    if pb ≠ pParity bs ds ∨ qb ≠ qParity bs ds then .done { res := [(0, 1#32), (1, wordOf stripe)] }
    else checkFrom n bs left (stripe + 1)

/-- CHECK (R340): a mismatch is a successful completion with RES0 = 1. -/
def checkProgram (s : State) : Prog :=
  whenConfigured s <| checkFrom s.n s.bs s.nb 0

def execCheck (s : State) : Host.Outcome State Fault Refusal := runCommand (checkProgram s) s

end Sys2Proof.Machine
end

