-- ==== Sys2Proof/Machine/Dispatch.lean ====
section
/-! DEFINITION. The dispatch of a command to its meaning, one arm per constructor of `Instr`. -/

namespace Sys2Proof.Machine

def exec (i : Instr) (s : State) : Host.Outcome State Fault Refusal :=
  match i with
  | .gfMul => Sys2Proof.Machine.execGfMul s
  | .gfPow => Sys2Proof.Machine.execGfPow s
  | .gfInv => Sys2Proof.Machine.execGfInv s
  | .gfSolve2 => Sys2Proof.Machine.execGfSolve2 s
  | .blkXor => Sys2Proof.Machine.execBlkXor s
  | .blkScale => Sys2Proof.Machine.execBlkScale s
  | .parComputeP => Sys2Proof.Machine.execParComputeP s
  | .parComputeQ => Sys2Proof.Machine.execParComputeQ s
  | .parUpdateP => Sys2Proof.Machine.execParUpdateP s
  | .parUpdateQ => Sys2Proof.Machine.execParUpdateQ s
  | .layPdiskP => Sys2Proof.Machine.execLayPdiskP s
  | .layPdiskQ => Sys2Proof.Machine.execLayPdiskQ s
  | .layIspar => Sys2Proof.Machine.execLayIspar s
  | .layResolve => Sys2Proof.Machine.execLayResolve s
  | .init => Sys2Proof.Machine.execInit s
  | .put => Sys2Proof.Machine.execPut s
  | .putraw => Sys2Proof.Machine.execPutraw s
  | .get => Sys2Proof.Machine.execGet s
  | .recSingleData => Sys2Proof.Machine.execRecSingleData s
  | .recSingleParity => Sys2Proof.Machine.execRecSingleParity s
  | .recDoubleData => Sys2Proof.Machine.execRecDoubleData s
  | .recDoubleParity => Sys2Proof.Machine.execRecDoubleParity s
  | .recDataAndParity => Sys2Proof.Machine.execRecDataAndParity s
  | .check => Sys2Proof.Machine.execCheck s

end Sys2Proof.Machine
end

