-- ==== Sys2Proof/Machine/Sequencer.lean ====
section
/-! DEFINITION. The core sequencer (R68): the program of the command word in CMD, one phase of it, a run of it to its
completion, and reset (R450 to R453). -/

namespace Sys2Proof.Machine

/-- An illegal word completes with IllegalCommand before any ARG is read (R148, R406). -/
def illegalProgram : Prog := .raise .illegalCommand noContext noContext

/-- The program of each command, as its `exec` runs it. -/
def program (i : Instr) (s : State) : Prog :=
  match i with
  | .gfMul => gfMulProgram s
  | .gfPow => gfPowProgram s
  | .gfInv => gfInvProgram s
  | .gfSolve2 => gfSolve2Program s
  | .blkXor => blkXorProgram s
  | .blkScale => blkScaleProgram s
  | .parComputeP => parComputePProgram s
  | .parComputeQ => parComputeQProgram s
  | .parUpdateP => parUpdatePProgram s
  | .parUpdateQ => parUpdateQProgram s
  | .layPdiskP => layPdiskPProgram s
  | .layPdiskQ => layPdiskQProgram s
  | .layIspar => layIsparProgram s
  | .layResolve => layResolveProgram s
  | .init => initProgram s
  | .put => putProgram s
  | .putraw => putrawProgram s
  | .get => getProgram s
  | .recSingleData => recSingleDataProgram s
  | .recSingleParity => recSingleParityProgram s
  | .recDoubleData => recDoubleDataProgram s
  | .recDoubleParity => recDoubleParityProgram s
  | .recDataAndParity => recDataAndParityProgram s
  | .check => checkProgram s

/-- The program of the latched command word (R143). -/
def State.commandProgram (s : State) : Prog :=
  match decode s.cmd with
  | .ok i => program i s
  | .error _ => illegalProgram

/-- The core's whole turn: in EXEC the command runs to its completion (or to a request that is never answered); in IDLE the
core waits for a CMD write (R425). -/
def coreRun (s : State) : Host.Outcome State Fault Refusal :=
  match s.seq with
  | .idle => .next s
  | .exec _ _ =>
    match decode s.cmd with
    | .ok i => exec i s
    | .error _ => runCommand illegalProgram s

/-- One phase of the command in EXEC (R68, R110): complete, issue the next request, or take the answer to the request that is
outstanding. A stalled command and an idle core stay as they are (R77, R425). -/
def corePhase (s : State) : Host.Outcome State Fault Refusal :=
  match s.seq with
  | .idle => .next s
  | .exec _ (.stalled _) => .next s
  | .exec _ (.waiting r) => .next (s.receive r).1
  | .exec h .quiet =>
    match s.commandProgram.resume h with
    | .done e => .next (s.complete e)
    | .raise kind d b => .next (s.completeError kind d b)
    | .stop f => .fault f
    | .ask r _ => .next { s with seq := .exec h (.waiting r) }

/-- The request that is outstanding, issued and without a response (R110, R452). -/
def State.outstanding (s : State) : Option Request :=
  match s.seq with
  | .exec _ (.waiting r) => some r
  | .exec _ (.stalled r) => some r
  | _ => none

/-- Reset (R450 to R453): every piece of core state takes its reset value (R72) and a command in EXEC is abandoned; DISK is
kept, except that the target bytes of an outstanding write become free (R452). DESIGN CHOICE (R452, R478; log 28): those bytes
settle once, in the step of the reset; a BlockStore that finishes the write later, over bytes a new command has used since, is
not covered. The build, the BlockStore, the inputs to come and the records of the completions so far are not the core's to
reset (log 22). No completion is recorded for the abandoned command. -/
def coreReset (s : State) : State :=
  let t := match s.outstanding with | none => s | some r => s.spoil r
  { State.reset with
    params := t.params, disk := t.disk, geometry := t.geometry,
    answers := t.answers, agenda := t.agenda, rdata := t.rdata, draws := t.draws,
    completions := t.completions }

/-- The command word of `withFetchWord`: the low `nbits` bits of w, every bit above them 0. -/
def tableWord (nbits w : Nat) : Word := BitVec.ofNat 32 (w % 2 ^ nbits)

/-- The machine with a command word accepted (R73) and nothing to come before the core's turn. -/
def State.withCommand (s : State) (w : Word) : State := { s.accept w with agenda := [] }

end Sys2Proof.Machine
end

