-- ==== Sys2Proof/Machine/Agenda.lean ====
section
/-! DEFINITION. What each event to come does (R40, R116, R150, R414; log 8, log 9, log 11). -/

namespace Sys2Proof.Machine

/-- The state with the first event taken off. -/
def State.afterEvent (s : State) (rest : List Event) : State := { s with agenda := rest }

/-- `poll` (R150): while BUSY = 1 the core has its turn and the host goes on polling; with BUSY = 0 the last read returns the
STATUS word and the host goes on (log 9). -/
def pollEvent (s : State) (rest : List Event) : Host.Outcome State Fault Refusal :=
  if s.busy then coreRun s else .next ((s.afterEvent rest).returned s.statusWord)

/-- The host waits for IRQ (R474): with IRQ high it goes on, else the core has its turn (log 9). -/
def waitIrqEvent (s : State) (rest : List Event) : Host.Outcome State Fault Refusal :=
  if s.irq then .next (s.afterEvent rest) else coreRun s

/-- The first event of the agenda, with the events after it. -/
def runEvent (s : State) (e : Event) (rest : List Event) : Host.Outcome State Fault Refusal :=
  match e with
  | .read addr => hostRead (s.afterEvent rest) addr
  | .write addr v => hostWrite (s.afterEvent rest) addr v
  | .poll => pollEvent s rest
  | .waitIrq => waitIrqEvent s rest
  | .core => corePhase (s.afterEvent rest)
  | .reset => .next (coreReset (s.afterEvent rest))

/-- The next event if one is to come; else the core's whole turn. -/
def nextMove (s : State) : Host.Outcome State Fault Refusal :=
  match s.agenda with
  | [] => coreRun s
  | e :: rest => runEvent s e rest

/-! ## The end of a run (R478) -/

/-- A run has ended when the host has performed its last access and the core is IDLE. A command in EXEC, one stalled for ever
among them, has not let the run end. -/
def State.runEnded (s : State) : Bool := s.agenda.isEmpty && !s.busy

/-- The offsets of the registers of R44. -/
def registerOffsets : List Nat :=
  [0x000, 0x004, 0x008, 0x00C, 0x010, 0x014, 0x018, 0x020, 0x024, 0x028] ++
  [0x040, 0x044, 0x048, 0x04C, 0x050, 0x054, 0x058, 0x05C, 0x060, 0x064, 0x068, 0x06C, 0x070, 0x074, 0x078]

/-- The observation of a run: the state at its end; a run that has not ended has none. -/
def State.observation (s : State) : Option Observation :=
  if s.runEnded then
    some
      { registers := registerOffsets.map fun off => (off, s.registerWord off)
        buf := s.buf, disk := s.disk, ovr := s.ovr, completions := s.completions }
  else none

end Sys2Proof.Machine
end

