-- ==== Sys2Proof/Machine/Step.lean ====
section
/-! DEFINITION. One step of the whole machine, and the placing of a command word for the next step. -/

namespace Sys2Proof.Machine

/-- One step: the event whose turn it is, or the core. -/
def step (s : State) : Host.Outcome State Fault Refusal := nextMove s

/-- The machine with the table's word accepted as a command (R73), so that the next step is the core's and runs it. It stands
for the host's write to CMD (log 10). -/
def State.withFetchWord (s : State) (nbits w : Nat) : State := s.withCommand (tableWord nbits w)

end Sys2Proof.Machine
end

