-- ==== Sys2Proof/Machine/HostSyntax.lean ====
section
/-! DEFINITION. The host's assembly syntax as lists of events (R149, R150): register offsets by name, the window address
BUFW(b, i), and the expansions of the pseudo-instructions. Labels, branches and halt are host control flow, which makes no
access to the core, and have no event. -/

namespace Sys2Proof.Machine

/-- The offset of ARGi (R44). -/
def argOffset (i : Nat) : Nat := 0x040 + 4 * i

/-- The address of an offset under a build's port base (R114). -/
def hostAddress (p : Params) (off : Nat) : Word := p.portBase + BitVec.ofNat 32 off

/-- `wr OFF, VAL` (R149). -/
def wrEvent (p : Params) (off : Nat) (v : Word) : Event := .write (hostAddress p off) v

/-- `rd OFF` (R149). -/
def rdEvent (p : Params) (off : Nat) : Event := .read (hostAddress p off)

/-- `BUFW(b, i)` (R149). -/
def bufw (p : Params) (b i : Nat) : Nat := windowBase + b * p.maxBsize + i

/-- The ARG writes of a command macro, from ARGi on (R150). -/
def argEvents (p : Params) : Nat → List Word → List Event
  | _, [] => []
  | i, v :: vs => wrEvent p (argOffset i) v :: argEvents p (i + 1) vs

/-- `MNEMONIC v0, ..., vk` (R150): the ARG writes in order, the CMD write, and a poll. -/
def commandEvents (p : Params) (i : Instr) (operands : List Word) : List Event :=
  argEvents p 0 operands ++ [wrEvent p 0x028 (encode i), .poll]

/-- `wrbuf b, i, w0, w1, ...` (R150). -/
def wrbufEvents (p : Params) (b : Nat) : Nat → List Word → List Event
  | _, [] => []
  | i, w :: ws => wrEvent p (bufw p b i) w :: wrbufEvents p b (i + 4) ws

/-- `fill b, i, nbytes, byte` (R150), nbytes a multiple of 4: every word is byte * 0x01010101. -/
def fillEvents (p : Params) (b i nbytes : Nat) (byte : Byte) : List Event :=
  wrbufEvents p b i (List.replicate (nbytes / 4) (byte.setWidth 32 * 0x01010101#32))

/-- `rdbuf b, i, nwords` (R150). -/
def rdbufEvents (p : Params) (b i nwords : Nat) : List Event :=
  (List.range nwords).map (fun j => rdEvent p (bufw p b (i + 4 * j)))

end Sys2Proof.Machine
end

