-- ==== Sys2Proof/Safety.lean ====
section
/-! DEFINITION. The terms claims are stated in: the state a command starts from, the two shapes of a completed state, the
premises on the BlockStore's inputs (R461, U5), the stripe invariants (R366), and the invariant every step keeps. -/

namespace Sys2Proof.Machine

/-! ## Where a command starts and how it ends -/

/-- A command has just been accepted: EXEC, no response yet, no request outstanding (R73). -/
abbrev State.Started (s : State) : Prop := s.seq = .exec [] .quiet

/-- A successful completion that leaves the RES registers at `res` (R75), with its record (R478); the other staged writes are
stated beside it. -/
def State.succeeded (s : State) (res : Vector Word 4) : State :=
  { s with
    seq := .idle, done := true, err := false, errcode := none, res := res
    completions := s.completions ++ [{ cmd := s.cmd, res := res, error := none }] }

/-- The state after an error completion (R76). -/
def State.failed (s : State) (kind : ErrorKind) (disk stripe : Word) : State :=
  { s with
    seq := .idle, done := true, err := true, errcode := some kind,
    errOpc := s.cmd, errDisk := disk, errStripe := stripe
    completions := s.completions ++ [{ cmd := s.cmd, res := s.res, error := some (kind, disk, stripe) }] }

/-- The state after a BlockStore write that succeeded (R107). -/
def State.stored (s : State) (d blk off : Nat) (bytes : Block) : State := { s with disk := s.diskWith d blk off bytes }

/-- A change of the next state, where there is one. -/
def mapNext (f : State → State) : Host.Outcome State Fault Refusal → Host.Outcome State Fault Refusal
  | .next t => .next (f t)
  | .fault r => .fault r
  | .refused r => .refused r

/-! ## Premises on the BlockStore (R461, U5) -/

/-- "every response OK" (U5), for the next `k` responses. -/
abbrev State.AnswersOk (s : State) (k : Nat) : Prop := s.answers.take k = List.replicate k Answer.ok

/-- R461(a), the geometry premise: whenever a command is in EXEC, the BlockStore's disk count, block count and block size equal
CFG. -/
abbrev State.Provisioned (s : State) : Prop := s.busy = true → s.geometry = some ⟨s.n, s.nb, s.bs⟩

/-- The BlockStore's geometry, where one is stated, is not smaller than CFG (R108, R461(a)). -/
abbrev State.StoreCovers (s : State) : Prop :=
  ∀ g ∈ s.geometry, s.n ≤ g.disks ∧ s.nb ≤ g.blocks ∧ s.bs ≤ g.bsize

/-! ## Stripes (R311, R366) -/

/-- The data blocks of a stripe, in ordinal order (R366). -/
def State.stripeData (s : State) (stripe : Nat) : List Block :=
  (dataDisks s.n stripe).map (fun d => s.diskBytes d stripe 0 s.bs)

/-- The data blocks of a stripe with the slots of the disks in `skip` zero, as `read_data` returns them (R311). -/
def State.survivors (s : State) (stripe : Nat) (skip : List Nat) : List Block :=
  (dataDisks s.n stripe).map (fun d => if skip.contains d then zeroBlock s.bs else s.diskBytes d stripe 0 s.bs)

/-- Invariant (P) of a stripe (R366). -/
abbrev State.InvariantP (s : State) (stripe : Nat) : Prop :=
  s.diskBytes (parityDisk s.n stripe 0) stripe 0 s.bs = pParity s.bs (s.stripeData stripe)

/-- Invariant (Q) of a stripe (R366). -/
abbrev State.InvariantQ (s : State) (stripe : Nat) : Prop :=
  s.diskBytes (parityDisk s.n stripe 1) stripe 0 s.bs = qParity s.bs (s.stripeData stripe)

/-- Every stripe satisfies (P) and (Q): what R461(b) asks of the initial contents (R366(d)). -/
def State.Consistent (s : State) : Prop := ∀ st < s.nb, s.InvariantP st ∧ s.InvariantQ st

/-- The launch premise of R461: (a) and (b). (c), no other writer, holds of every state: no event of the model is one (log 19). -/
abbrev State.LaunchPremise (s : State) : Prop := s.Provisioned ∧ s.Consistent

/-! ## The request discipline (R110, R319, R405) -/

/-- Every request the program makes is a WRITE. -/
def Prog.OnlyWrites : Prog → Prop
  | .ask r k => r.isWrite = true ∧ ∀ b, (k b).OnlyWrites
  | .done _ => True
  | .raise _ _ _ => True
  | .stop _ => True

/-- The program makes every READ before its first WRITE, whatever the responses are (R319, R405). -/
def Prog.ReadsFirst : Prog → Prop
  | .ask r k => (r.isWrite = true → ∀ b, (k b).OnlyWrites) ∧ (r.isWrite = false → ∀ b, (k b).ReadsFirst)
  | .done _ => True
  | .raise _ _ _ => True
  | .stop _ => True

/-- The request that waits in the port is the one the command's program makes next (R110). -/
def State.PortConsistent (s : State) : Prop :=
  ∀ h r, s.seq = .exec h (.waiting r) → ∃ k, s.commandProgram.resume h = .ask r k

/-! ## The invariant of the machine -/

/-- CFG is all zero, "not configured", or a geometry INIT accepts (R50, R51, R52). -/
abbrev State.CfgLegal (s : State) : Prop :=
  (s.n = 0 ∧ s.nb = 0 ∧ s.bs = 0) ∨
    (3 ≤ s.n ∧ s.n ≤ maxDisks ∧ 1 ≤ s.nb ∧ 1 ≤ s.bs ∧ s.bs ≤ s.params.maxBsize)

/-- The two memories are in canonical form. -/
abbrev State.Canonical (s : State) : Prop :=
  Memory.wf bufUnlisted s.buf = true ∧ Memory.wf diskUnlisted s.disk = true

/-- What every step keeps: a legal build (R7), a legal CFG, canonical memories, ERR = 1 exactly if ERRCODE is not 0 (R54), and
a port that waits for the running command's own request (R110). -/
def State.Inv (s : State) : Prop :=
  s.params.Legal ∧ s.CfgLegal ∧ s.Canonical ∧ s.err = s.errcode.isSome ∧ s.PortConsistent

end Sys2Proof.Machine
end

