-- ==== Sys2Proof/Certificates/Slice0/Obligations.lean ====
section
/-! DEFINITION. The statements for the provers, one `def Obligations.<Name> : Prop` each, and the words of the spec they are
written in. A command's result is stated as ONE equation for the whole next state, so it is the command's completion and its
frame at once: every field the equation does not name is as before. The record that `State.succeeded` and `State.failed` add to
the run's completions is the model's form of the one R478 names (log 29). -/

open Sys2Proof Sys2Proof.Machine

namespace Sys2Proof.Spec

/-! ## Vocabulary -/

/-- The XOR of f 0, ..., f (k-1). -/
def xorSum (f : Nat → Byte) : Nat → Byte
  | 0 => 0#8
  | k + 1 => xorSum f k ^^^ f k

/-- The bytes f 0, ..., f (len-1). -/
def bytesOf (len : Nat) (f : Nat → Byte) : Block := (List.range len).map f

/-- Bytes 0..len-1 of buffer b all have a value, and it is f. -/
def Holds (s : State) (b len : Nat) (f : Nat → Byte) : Prop := ∀ i < len, s.bufByte b i = some (f i)

/-- Some byte of bytes 0..len-1 of buffer b has no value. -/
def Unwritten (s : State) (b len : Nat) : Prop := ∃ i < len, s.bufByte b i = none

/-- A buffer operand and a length operand in range (R241). -/
def BufferOk (s : State) (b : Nat) : Prop := b < s.params.nbuf
def LenOk (s : State) (len : Nat) : Prop := 1 ≤ len ∧ len ≤ s.params.maxBsize

/-- The polynomial product of two bytes, degree at most 14 (R200). -/
def polyProduct (a b : Byte) : BitVec 16 :=
  (List.range 8).foldl (fun p i => if a.getLsbD i then p ^^^ (b.setWidth 16 <<< i) else p) 0#16

/-- The remainder of a polynomial of degree at most 14 modulo m(x) = 0x11D (R200). -/
def polyMod (p : BitVec 16) : Byte :=
  ([6, 5, 4, 3, 2, 1, 0].foldl (fun p k => if p.getLsbD (8 + k) then p ^^^ (0x11D#16 <<< k) else p) p).setWidth 8

/-- The address a transfer resolves to: R360's (s, off). -/
def target (s : State) : Nat × Nat := resolve s.n s.bs (s.u 0) (s.u 1)

/-- The first check of R360 that fails, with its error and context; none where all pass. -/
def transferError (s : State) : Option (ErrorKind × Word × Word) :=
  if s.n < 3 then some (.layout, noContext, noContext)
  else if s.n ≤ s.u 0 then some (.layout, s.argLatched 0, noContext)
  else if s.u 2 = 0 ∨ s.bs < s.u 2 then some (.bounds, s.argLatched 0, noContext)
  else if s.params.nbuf ≤ s.u 3 then some (.bounds, s.argLatched 0, noContext)
  else if s.nb ≤ (target s).1 then
    some (.bounds, s.argLatched 0, if (target s).1 < 2 ^ 32 then BitVec.ofNat 32 (target s).1 else noContext)
  else if s.bs < (target s).2 + s.u 2 then some (.bounds, s.argLatched 0, BitVec.ofNat 32 (target s).1)
  else none

/-- The recovery commands and the number of blocks each needs (R310). -/
def recoveryNeed : Instr → Option Nat
  | .recSingleData => some 1
  | .recSingleParity => some 1
  | .recDoubleData => some 2
  | .recDoubleParity => some 2
  | .recDataAndParity => some 2
  | _ => none

/-- The role check of a recovery case (R310 check 7, R313 to R317): the disk named in its error, if it fails. -/
def roleError (i : Instr) (s : State) : Option Word :=
  let par0 := isParity s.n (s.u 1) (s.u 2)
  let par1 := isParity s.n (s.u 3) (s.u 2)
  match i with
  | .recSingleData => if par0 then some (s.argLatched 1) else none
  | .recSingleParity => if par0 then none else some (s.argLatched 1)
  | .recDoubleData => if par0 then some (s.argLatched 1) else if par1 then some (s.argLatched 3) else none
  | .recDoubleParity => if par0 then (if par1 then none else some (s.argLatched 3)) else some (s.argLatched 1)
  | .recDataAndParity => if par0 = par1 then some (s.argLatched 3) else none
  | _ => none

/-- The first check of R310 that fails, with its error and context; none where all pass. -/
def recoveryError (i : Instr) (s : State) : Option (ErrorKind × Word × Word) :=
  let two := recoveryNeed i = some 2
  if s.n < 3 then some (.layout, noContext, noContext)
  else if some (s.u 0) ≠ recoveryNeed i then some (.recoveryPrecondition, noContext, noContext)
  else if s.n ≤ s.u 1 then some (.layout, s.argLatched 1, noContext)
  else if two ∧ s.n ≤ s.u 3 then some (.layout, s.argLatched 3, noContext)
  else if two ∧ s.u 4 ≠ s.u 2 then some (.recoveryPrecondition, s.argLatched 3, s.argLatched 4)
  else if two ∧ s.u 3 = s.u 1 then some (.recoveryPrecondition, s.argLatched 3, s.argLatched 4)
  else if s.nb ≤ s.u 2 then some (.layout, s.argLatched 1, s.argLatched 2)
  else (roleError i s).map fun d => (.recoveryPrecondition, d, s.argLatched 2)

/-- The disks a recovery command names as lost. -/
def lostDisks (i : Instr) (s : State) : List Nat := if recoveryNeed i = some 2 then [s.u 1, s.u 3] else [s.u 1]

/-- P(s) and Q(s) of a stripe (R281). -/
def pDisk (s : State) (stripe : Nat) : Nat := parityDisk s.n stripe 0
def qDisk (s : State) (stripe : Nat) : Nat := parityDisk s.n stripe 1

/-- `s` with the results of a transfer: RES0 the stripe, RES1 the offset, `k` answers used (R362 to R365). -/
def transferred (s : State) (k : Nat) : State :=
  { s.succeeded ((s.res.set 0 (BitVec.ofNat 32 (target s).1)).set 1 (BitVec.ofNat 32 (target s).2)) with
    answers := s.answers.drop k }

/-- `s` with the result of a recovery case: RES0 the number of blocks written, `k` answers used (R319). -/
def recovered (s : State) (blocks : Word) (k : Nat) : State :=
  { s.succeeded (s.res.set 0 blocks) with answers := s.answers.drop k }

/-- The buffer bytes a command may write, as a buffer and a length (R242, R365). -/
def bufferTarget (i : Instr) (s : State) : Option (Nat × Nat) :=
  match i with
  | .blkXor => some (s.u 0, s.u 3)
  | .blkScale => some (s.u 0, s.u 3)
  | .parComputeP => some (s.u 0, s.u 3)
  | .parComputeQ => some (s.u 0, s.u 3)
  | .parUpdateP => some (s.u 0, s.u 4)
  | .parUpdateQ => some (s.u 0, s.u 4)
  | .get => some (s.u 3, s.u 2)
  | _ => none

/-- The BlockStore bytes a command may write, as (disk, block, offset, length) (R313 to R317, R362 to R364). -/
def writeRanges (i : Instr) (s : State) : List (Nat × Nat × Nat × Nat) :=
  let st := (target s).1
  let off := (target s).2
  match i with
  | .put =>
    match s.params.putParityMode with
    | .recompute => [(s.u 0, st, off, s.u 2), (pDisk s st, st, 0, s.bs), (qDisk s st, st, 0, s.bs)]
    | .incremental => [(s.u 0, st, off, s.u 2), (pDisk s st, st, off, s.u 2), (qDisk s st, st, off, s.u 2)]
  | .putraw => [(s.u 0, st, off, s.u 2)]
  | .recSingleData => [(s.u 1, s.u 2, 0, s.bs)]
  | .recSingleParity => [(s.u 1, s.u 2, 0, s.bs)]
  | .recDoubleData => [(s.u 1, s.u 2, 0, s.bs), (s.u 3, s.u 2, 0, s.bs)]
  | .recDoubleParity => [(pDisk s (s.u 2), s.u 2, 0, s.bs), (qDisk s (s.u 2), s.u 2, 0, s.bs)]
  | .recDataAndParity => [(s.u 1, s.u 2, 0, s.bs), (s.u 3, s.u 2, 0, s.bs)]
  | _ => []

/-- The byte (disk, block, offset) lies in the range. -/
def InRange (d blk off : Nat) (r : Nat × Nat × Nat × Nat) : Prop :=
  d = r.1 ∧ blk = r.2.1 ∧ r.2.2.1 ≤ off ∧ off < r.2.2.1 + r.2.2.2

/-- The byte lies outside what the request writes: everywhere, for a READ. -/
def Untouched (r : Request) (d blk off : Nat) : Prop :=
  r.isWrite = true → ¬InRange d blk off (r.disk, r.block, r.off, r.len)

/-- The input `a` makes the BlockStore answer FAIL(kind) to the request (R105, R108, R461(a); log 18): a FAIL input, but
FAIL(BOUNDS) only where no geometry is stated or the request is outside it; or an OK input on a request outside the geometry. -/
def StoreFails (s : State) (r : Request) (a : Answer) (kind : StoreFailure) : Prop :=
  (a = .fail kind ∧ (kind = .bounds → s.geometry = none ∨ s.inGeometry r = false)) ∨
    (a = .ok ∧ kind = .bounds ∧ s.inGeometry r = false)

/-- The request lies inside CFG. -/
def InsideCfg (s : State) (r : Request) : Prop := r.disk < s.n ∧ r.block < s.nb ∧ r.off + r.len ≤ s.bs

/-- The READ of the bytes a transfer addresses, and the WRITE of them (R364, R365). -/
def targetRead (s : State) : Request := .read (s.u 0) (target s).1 (target s).2 (s.u 2)
def targetWrite (s : State) (x : Nat → Byte) : Request := .write (s.u 0) (target s).1 (target s).2 (bytesOf (s.u 2) x)

/-- The error kinds of R402. -/
def errorKinds : Instr → List ErrorKind
  | .gfMul => []
  | .gfPow => []
  | .gfInv => [.domain]
  | .gfSolve2 => [.domain]
  | .blkXor => [.bounds]
  | .blkScale => [.bounds]
  | .parComputeP => [.bounds]
  | .parComputeQ => [.bounds]
  | .parUpdateP => [.bounds]
  | .parUpdateQ => [.bounds]
  | .layPdiskP => [.layout]
  | .layPdiskQ => [.layout]
  | .layIspar => [.layout]
  | .layResolve => [.layout, .bounds]
  | .init => [.layout, .config]
  | .put => [.layout, .bounds, .config, .storageIO]
  | .putraw => [.layout, .bounds, .config, .storageIO]
  | .get => [.layout, .bounds, .config, .storageIO]
  | .recSingleData => [.layout, .recoveryPrecondition, .config, .bounds, .storageIO]
  | .recSingleParity => [.layout, .recoveryPrecondition, .config, .bounds, .storageIO]
  | .recDoubleData => [.layout, .recoveryPrecondition, .config, .bounds, .storageIO]
  | .recDoubleParity => [.layout, .recoveryPrecondition, .config, .bounds, .storageIO]
  | .recDataAndParity => [.layout, .recoveryPrecondition, .config, .bounds, .storageIO]
  | .check => [.layout, .config, .bounds, .storageIO]

/-- The RES registers a command's rule names (R58, R145). -/
def resNamed : Instr → List (Fin 4)
  | .gfMul => [0]
  | .gfPow => [0]
  | .gfInv => [0]
  | .gfSolve2 => [0, 1, 2, 3]
  | .layPdiskP => [0]
  | .layPdiskQ => [0]
  | .layIspar => [0, 1]
  | .layResolve => [0, 1]
  | .put => [0, 1]
  | .putraw => [0, 1]
  | .get => [0, 1]
  | .recSingleData => [0]
  | .recSingleParity => [0]
  | .recDoubleData => [0]
  | .recDoubleParity => [0]
  | .recDataAndParity => [0]
  | .check => [0, 1]
  | _ => []

/-- The code of an error kind (R401). -/
def codeOf : Option ErrorKind → Nat
  | none => 0
  | some .config => 1
  | some .bounds => 2
  | some .layout => 3
  | some .recoveryPrecondition => 4
  | some .storageIO => 5
  | some .illegalCommand => 6
  | some .domain => 7

/-- The register map of R44 with the value each register reads as. -/
def registerTable (s : State) : List (Nat × Word) :=
  [(0x000, 0x52364746#32), (0x004, 0x00010000#32),
   (0x008, BitVec.ofNat 32 (s.params.nbuf + 2 ^ 8 * s.params.log2MaxBsize + 2 ^ 16 * s.params.mulImpl.toNat +
      2 ^ 17 * s.params.invImpl.toNat + 2 ^ 18 * (if s.params.putParityMode = .incremental then 1 else 0))),
   (0x00C, BitVec.ofNat 32 (s.params.mulLat + 2 ^ 8 * s.params.invLat + 2 ^ 16 * s.params.lanesLog2)),
   (0x010, s.cfgNdisks), (0x014, s.cfgNblocks), (0x018, s.cfgBsize),
   (0x020, BitVec.ofNat 32 s.irqEn.toNat),
   (0x024, BitVec.ofNat 32 (s.busy.toNat + 2 * s.done.toNat + 4 * s.err.toNat + 8 * s.ovr.toNat +
      2 ^ 8 * codeOf s.errcode)),
   (0x028, s.cmd)] ++
  [(0x040, s.args[0]), (0x044, s.args[1]), (0x048, s.args[2]), (0x04C, s.args[3]),
   (0x050, s.args[4]), (0x054, s.args[5]), (0x058, s.args[6]), (0x05C, s.args[7]),
   (0x060, s.res[0]), (0x064, s.res[1]), (0x068, s.res[2]), (0x06C, s.res[3]),
   (0x070, s.errOpc), (0x074, s.errDisk), (0x078, s.errStripe)]

end Sys2Proof.Spec

open Sys2Proof.Spec

/-! ## The GF unit -/

/-- R210: GF_MUL. -/
def Obligations.GfMulResult : Prop :=
  decode 0x00000001#32 = .ok .gfMul ∧
  ∀ s : State, s.Started →
    exec .gfMul s = .next (s.succeeded (s.res.set 0 (zextByte (gfMul (s.b 0) (s.b 1)))))

/-- R211: GF_POW, with EXP[n mod 255] and the Euclidean mod. -/
def Obligations.GfPowResult : Prop :=
  decode 0x00000002#32 = .ok .gfPow ∧
  ∀ s : State, s.Started → ∃ j : Nat, j < 255 ∧ (j : Int) = (s.argLatched 0).toInt % 255 ∧ ∃ e, expTable[j]? = some e ∧
    exec .gfPow s = .next (s.succeeded (s.res.set 0 (zextByte e)))

/-- R212: GF_INV, its value and its DomainError. -/
def Obligations.GfInvResult : Prop :=
  decode 0x00000003#32 = .ok .gfInv ∧
  ∀ s : State, s.Started →
    (s.b 0 = 0#8 → exec .gfInv s = .next (s.failed .domain noContext noContext)) ∧
    (s.b 0 ≠ 0#8 → ∃ c, gfMul (s.b 0) c = 0x01#8 ∧
      exec .gfInv s = .next (s.succeeded (s.res.set 0 (zextByte c))))

/-- R214 with R209 and R213: GF_SOLVE2 gives the solution of the two equations and the coefficients A and B, and DomainError
where x = y (mod 255). -/
def Obligations.GfSolve2Result : Prop :=
  decode 0x00000004#32 = .ok .gfSolve2 ∧
  ∀ s : State, s.Started → ∀ x y : Int, x = (s.b 0).toNat → y = (s.b 1).toNat →
    (x % 255 = y % 255 → exec .gfSolve2 s = .next (s.failed .domain noContext noContext)) ∧
    (x % 255 ≠ y % 255 → ∃ dx dy a b,
      dx ^^^ dy = s.b 2 ∧ gfMul (gfPow x) dx ^^^ gfMul (gfPow y) dy = s.b 3 ∧
      gfMul (gfPow (y - x) ^^^ 0x01#8) a = gfPow (y - x) ∧ gfMul (gfPow (y - x) ^^^ 0x01#8) b = gfPow (-x) ∧
      exec .gfSolve2 s = .next
        (s.succeeded ((((s.res.set 0 (zextByte dx)).set 1 (zextByte dy)).set 2 (zextByte a)).set 3 (zextByte b))))

/-- R200, R201: gf_mul is the polynomial product modulo 0x11D. -/
def Obligations.GfMulIsThePolynomialProduct : Prop := ∀ a b : Byte, gfMul a b = polyMod (polyProduct a b)

/-- R202: the properties of gf_mul. -/
def Obligations.GfFieldLaws : Prop :=
  (∀ a b, gfMul a b = gfMul b a) ∧ (∀ a b c, gfMul (gfMul a b) c = gfMul a (gfMul b c)) ∧
  (∀ a b c, gfMul a (b ^^^ c) = gfMul a b ^^^ gfMul a c) ∧ (∀ a, gfMul a 0#8 = 0#8) ∧ (∀ a, gfMul a 0x01#8 = a) ∧
  (∀ a b, gfMul a b = 0#8 ↔ a = 0#8 ∨ b = 0#8) ∧ gfMul 0x02#8 0x80#8 = 0x1D#8

/-- R203, R205, R206, R208: the tables EXP, LOG and INV are the powers of g, their exponents and the inverses; LOG[0] and
INV[0] do not exist. -/
def Obligations.GfTablesArePowers : Prop :=
  gfPow 0 = 0x01#8 ∧ (∀ i < 254, gfPow ((i : Nat) + 1 : Int) = gfMul (gfPow (i : Nat)) 0x02#8) ∧
  gfMul (gfPow 254) 0x02#8 = 0x01#8 ∧
  (∀ a : Byte, a ≠ 0#8 → ∃ i, gfLog a = some i ∧ i < 255 ∧ gfPow i = a ∧ (∀ j < 255, gfPow (j : Nat) = a → j = i)) ∧
  (∀ i < 255, gfPow (i : Nat) ≠ 0#8) ∧
  (∀ a : Byte, a ≠ 0#8 → ∃ c, gfInv a = some c ∧ gfMul a c = 0x01#8 ∧ (∀ c', gfMul a c' = 0x01#8 → c' = c)) ∧
  (∀ a : Byte, a ≠ 0#8 → ∃ i, gfLog a = some i ∧ gfInv a = some (gfPow (-(i : Int)))) ∧
  gfLog 0#8 = none ∧ gfInv 0#8 = none

/-- R204: gf_pow on every integer. -/
def Obligations.GfPowLaws : Prop :=
  (∀ n : Int, ∃ j : Nat, j < 255 ∧ (j : Int) = n % 255 ∧ expTable[j]? = some (gfPow n)) ∧
  (∀ n k : Int, gfPow (n + 255 * k) = gfPow n) ∧ (∀ a b : Int, gfPow (a + b) = gfMul (gfPow a) (gfPow b)) ∧
  (∀ n : Int, gfInv (gfPow n) = some (gfPow (-n)))

/-! ## Block commands -/

/-- R246 with R241, R242: BLK_XOR, its BoundsError, and the fault on an operand byte without a value (R64, U3, log 6). -/
def Obligations.BlkXorResult : Prop :=
  decode 0x00000010#32 = .ok .blkXor ∧
  ∀ s : State, s.Started →
    let ok := BufferOk s (s.u 0) ∧ BufferOk s (s.u 1) ∧ BufferOk s (s.u 2) ∧ LenOk s (s.u 3)
    (¬ok → exec .blkXor s = .next (s.failed .bounds noContext noContext)) ∧
    (ok → ∀ x y, Holds s (s.u 1) (s.u 3) x → Holds s (s.u 2) (s.u 3) y →
      exec .blkXor s = .next
        { s.succeeded s.res with buf := s.bufWith (s.u 0) 0 (bytesOf (s.u 3) fun i => x i ^^^ y i) }) ∧
    (ok → Unwritten s (s.u 1) (s.u 3) ∨ Unwritten s (s.u 2) (s.u 3) → exec .blkXor s = .fault .unwrittenBuffer)

/-- R247 with R241, R242: BLK_SCALE. -/
def Obligations.BlkScaleResult : Prop :=
  decode 0x00000011#32 = .ok .blkScale ∧
  ∀ s : State, s.Started →
    let ok := BufferOk s (s.u 0) ∧ BufferOk s (s.u 1) ∧ LenOk s (s.u 3)
    (¬ok → exec .blkScale s = .next (s.failed .bounds noContext noContext)) ∧
    (ok → ∀ x, Holds s (s.u 1) (s.u 3) x →
      exec .blkScale s = .next
        { s.succeeded s.res with buf := s.bufWith (s.u 0) 0 (bytesOf (s.u 3) fun i => gfMul (s.b 2) (x i)) }) ∧
    (ok → Unwritten s (s.u 1) (s.u 3) → exec .blkScale s = .fault .unwrittenBuffer)

/-- R248, R249 with R241 to R244: PAR_COMPUTE_P and PAR_COMPUTE_Q. -/
def Obligations.ParComputeResult : Prop :=
  decode 0x00000012#32 = .ok .parComputeP ∧ decode 0x00000013#32 = .ok .parComputeQ ∧
  ∀ s : State, s.Started →
    let ok := BufferOk s (s.u 0) ∧ BufferOk s (s.u 1) ∧ 1 ≤ s.u 2 ∧ s.u 1 + s.u 2 ≤ s.params.nbuf ∧ LenOk s (s.u 3)
    (¬ok → exec .parComputeP s = .next (s.failed .bounds noContext noContext) ∧
      exec .parComputeQ s = .next (s.failed .bounds noContext noContext)) ∧
    (ok → ∀ d : Nat → Nat → Byte, (∀ j < s.u 2, Holds s (s.u 1 + j) (s.u 3) (d j)) →
      exec .parComputeP s = .next
        { s.succeeded s.res with buf := s.bufWith (s.u 0) 0 (bytesOf (s.u 3) fun i => xorSum (fun j => d j i) (s.u 2)) } ∧
      exec .parComputeQ s = .next
        { s.succeeded s.res with
          buf := s.bufWith (s.u 0) 0
            (bytesOf (s.u 3) fun i => xorSum (fun j => gfMul (gfPow (j : Nat)) (d j i)) (s.u 2)) }) ∧
    (ok → (∃ j < s.u 2, Unwritten s (s.u 1 + j) (s.u 3)) →
      exec .parComputeP s = .fault .unwrittenBuffer ∧ exec .parComputeQ s = .fault .unwrittenBuffer)

/-- R250, R251 with R241, R242, R245: PAR_UPDATE_P and PAR_UPDATE_Q; ARG5 is not checked. -/
def Obligations.ParUpdateResult : Prop :=
  decode 0x00000014#32 = .ok .parUpdateP ∧ decode 0x00000015#32 = .ok .parUpdateQ ∧
  ∀ s : State, s.Started →
    let ok := BufferOk s (s.u 0) ∧ BufferOk s (s.u 1) ∧ BufferOk s (s.u 2) ∧ BufferOk s (s.u 3) ∧ LenOk s (s.u 4)
    let g := gfPow (s.argLatched 5).toInt
    (¬ok → exec .parUpdateP s = .next (s.failed .bounds noContext noContext) ∧
      exec .parUpdateQ s = .next (s.failed .bounds noContext noContext)) ∧
    (ok → ∀ o w r, Holds s (s.u 1) (s.u 4) o → Holds s (s.u 2) (s.u 4) w → Holds s (s.u 3) (s.u 4) r →
      exec .parUpdateP s = .next
        { s.succeeded s.res with buf := s.bufWith (s.u 0) 0 (bytesOf (s.u 4) fun i => r i ^^^ o i ^^^ w i) } ∧
      exec .parUpdateQ s = .next
        { s.succeeded s.res with
          buf := s.bufWith (s.u 0) 0 (bytesOf (s.u 4) fun i => r i ^^^ gfMul g (o i) ^^^ gfMul g (w i)) }) ∧
    (ok → Unwritten s (s.u 1) (s.u 4) ∨ Unwritten s (s.u 2) (s.u 4) ∨ Unwritten s (s.u 3) (s.u 4) →
      exec .parUpdateP s = .fault .unwrittenBuffer ∧ exec .parUpdateQ s = .fault .unwrittenBuffer)

/-- R252: the incremental update gives the parity of the changed list. -/
def Obligations.UpdateAgreesWithCompute : Prop :=
  ∀ (len : Nat) (ds : List Block) (j : Nat) (new : Block) (hj : j < ds.length),
    (∀ d ∈ ds, d.length = len) → new.length = len →
    pUpdate ds[j] new (pParity len ds) = pParity len (ds.set j new) ∧
    qUpdate ds[j] new (qParity len ds) j = qParity len (ds.set j new)

/-- R242, R365, R366(b) as a frame: a command leaves every byte of BUF alone outside the bytes of its own destination, in
whatever state of its run it is, and a command with no buffer destination leaves BUF alone. -/
def Obligations.BufferFrame : Prop :=
  ∀ (i : Instr) (s t : State), s.CfgLegal → exec i s = .next t →
    (bufferTarget i s = none → t.buf = s.buf) ∧
    ∀ b k, k < s.params.maxBsize → (∀ dst len, bufferTarget i s = some (dst, len) → ¬(b = dst ∧ k < len)) →
      t.bufByte b k = s.bufByte b k

/-! ## Layout -/

/-- R288, R289 with R281, R287: LAY_PDISK_P and LAY_PDISK_Q. -/
def Obligations.LayPdiskResult : Prop :=
  decode 0x00000020#32 = .ok .layPdiskP ∧ decode 0x00000021#32 = .ok .layPdiskQ ∧
  ∀ s : State, s.Started → ∀ i p, (i = Instr.layPdiskP ∧ p = 0) ∨ (i = Instr.layPdiskQ ∧ p = 1) →
    (s.n < 3 → exec i s = .next (s.failed .layout noContext noContext)) ∧
    (3 ≤ s.n → s.nb ≤ s.u 0 → exec i s = .next (s.failed .layout noContext (s.argLatched 0))) ∧
    (3 ≤ s.n → s.u 0 < s.nb →
      exec i s = .next
        (s.succeeded (s.res.set 0 (BitVec.ofInt 32 ((((s.u 0 : Int) + 1) * ((s.n : Int) - 1) - 1 + p) % s.n)))))

/-- R290 with R282, R283, R287: LAY_ISPAR. RES1 is 0 for P, 1 for Q, and the index in data_disks otherwise. -/
def Obligations.LayIsparResult : Prop :=
  decode 0x00000022#32 = .ok .layIspar ∧
  ∀ s : State, s.Started →
    (s.n < 3 → exec .layIspar s = .next (s.failed .layout noContext noContext)) ∧
    (3 ≤ s.n → s.n ≤ s.u 0 → exec .layIspar s = .next (s.failed .layout (s.argLatched 0) noContext)) ∧
    (3 ≤ s.n → s.u 0 < s.n → s.nb ≤ s.u 1 →
      exec .layIspar s = .next (s.failed .layout (s.argLatched 0) (s.argLatched 1))) ∧
    (3 ≤ s.n → s.u 0 < s.n → s.u 1 < s.nb →
      (s.u 0 = pDisk s (s.u 1) →
        exec .layIspar s = .next (s.succeeded ((s.res.set 0 1#32).set 1 0#32))) ∧
      (s.u 0 = qDisk s (s.u 1) →
        exec .layIspar s = .next (s.succeeded ((s.res.set 0 1#32).set 1 1#32))) ∧
      (s.u 0 ≠ pDisk s (s.u 1) → s.u 0 ≠ qDisk s (s.u 1) → ∃ k, (dataDisks s.n (s.u 1))[k]? = some (s.u 0) ∧
        exec .layIspar s = .next (s.succeeded ((s.res.set 0 0#32).set 1 (BitVec.ofNat 32 k)))))

/-- R291 with R285, R287: LAY_RESOLVE answers what the linear walk of R285 finds. -/
def Obligations.LayResolveResult : Prop :=
  decode 0x00000023#32 = .ok .layResolve ∧
  ∀ s : State, s.Started →
    (s.n < 3 → exec .layResolve s = .next (s.failed .layout noContext noContext)) ∧
    (3 ≤ s.n → s.n ≤ s.u 0 → exec .layResolve s = .next (s.failed .layout (s.argLatched 0) noContext)) ∧
    (3 ≤ s.n → s.u 0 < s.n → ∃ fuel st, resolveWalk s.n (s.u 0) (s.u 1 / s.bs) fuel 0 0 = some st) ∧
    (3 ≤ s.n → s.u 0 < s.n → ∀ fuel st, resolveWalk s.n (s.u 0) (s.u 1 / s.bs) fuel 0 0 = some st →
      (s.nb ≤ st → exec .layResolve s = .next
        (s.failed .bounds (s.argLatched 0) (if st < 2 ^ 32 then BitVec.ofNat 32 st else noContext))) ∧
      (st < s.nb → exec .layResolve s = .next
        (s.succeeded ((s.res.set 0 (BitVec.ofNat 32 st)).set 1 (BitVec.ofNat 32 (s.u 1 % s.bs))))))

/-- R284: the properties (a) to (e) of the parity rotation. -/
def Obligations.ParityRotation : Prop :=
  (∀ n, 3 ≤ n → ∀ s : Nat,
    (parityDisk n s 0 : Int) = ((n : Int) - 2 - s) % n ∧ (parityDisk n s 1 : Int) = ((n : Int) - 1 - s) % n ∧
    parityDisk n s 1 = (parityDisk n s 0 + 1) % n ∧
    parityDisk n s 0 ≠ parityDisk n s 1 ∧ (dataDisks n s).length = n - 2 ∧
    (∀ p < 2, parityDisk n (s + n) p = parityDisk n s p) ∧
    (∀ d < n, (∃ j, j < n ∧ parityDisk n (s + j) 0 = d ∧ ∀ j' < n, parityDisk n (s + j') 0 = d → j' = j) ∧
      (∃ j, j < n ∧ parityDisk n (s + j) 1 = d ∧ ∀ j' < n, parityDisk n (s + j') 1 = d → j' = j) ∧
      (∀ j, parityDisk n j 0 = d ↔ (j : Int) % n = ((n : Int) - 2 - d) % n) ∧
      (∀ j, parityDisk n j 1 = d ↔ (j : Int) % n = ((n : Int) - 1 - d) % n) ∧
      ((List.range n).filter (fun j => !isParity n d (s + j))).length = n - 2)) ∧
  (List.range 7).map (fun s => (parityDisk 6 s 0, parityDisk 6 s 1)) =
    [(4, 5), (3, 4), (2, 3), (1, 2), (0, 1), (5, 0), (4, 5)]

/-- R285, R286 (the model computes the closed form, log 12): the closed form gives the stripe and offset of the linear walk, which always ends, at a stripe where the disk
holds data; and the next block of the disk lies in a later stripe (R367). -/
def Obligations.ResolveIsTheWalk : Prop :=
  ∀ n bs d pos, 3 ≤ n → d < n →
    (∃ fuel, resolveWalk n d (pos / bs) fuel 0 0 = some (resolve n bs d pos).1) ∧
    (resolve n bs d pos).2 = pos % bs ∧ isParity n d (resolve n bs d pos).1 = false ∧
    (1 ≤ bs → (resolve n bs d pos).1 < (resolve n bs d (pos + bs)).1)

/-! ## Storage commands -/

/-- R361: INIT and its two errors. -/
def Obligations.InitResult : Prop :=
  decode 0x00000030#32 = .ok .init ∧
  ∀ s : State, s.Started →
    (s.u 0 < 3 ∨ 257 < s.u 0 → exec .init s = .next (s.failed .layout noContext noContext)) ∧
    (3 ≤ s.u 0 → s.u 0 ≤ 257 → s.u 1 = 0 ∨ s.u 2 = 0 ∨ s.params.maxBsize < s.u 2 →
      exec .init s = .next (s.failed .config noContext noContext)) ∧
    (3 ≤ s.u 0 → s.u 0 ≤ 257 → 1 ≤ s.u 1 → 1 ≤ s.u 2 → s.u 2 ≤ s.params.maxBsize →
      exec .init s = .next
        { s.succeeded s.res with
          cfgNdisks := s.argLatched 0, cfgNblocks := s.argLatched 1, cfgBsize := s.argLatched 2 })

/-- R360: the checks of the transfer commands, in order, each with its error and context. -/
def Obligations.TransferErrors : Prop :=
  ∀ (i : Instr) (s : State), i = .put ∨ i = .putraw ∨ i = .get → s.Started →
    ∀ k d b, transferError s = some (k, d, b) → exec i s = .next (s.failed k d b)

/-- R365: GET, its result, and the error of its one BsRead. -/
def Obligations.GetResult : Prop :=
  decode 0x00000033#32 = .ok .get ∧
  ∀ s : State, s.Started → transferError s = none →
    (s.StoreCovers → s.AnswersOk 1 →
      exec .get s = .next
        { transferred s 1 with
          buf := s.bufWith (s.u 3) 0 (s.diskBytes (s.u 0) (target s).1 (target s).2 (s.u 2)) }) ∧
    (∀ a rest k, s.answers = a :: rest → StoreFails s (targetRead s) a k →
      exec .get s = .next
        { s.failed (storeError k) (s.argLatched 0) (BitVec.ofNat 32 (target s).1) with answers := rest })

/-- R364: PUTRAW, its result, the error of its one BsWrite, which leaves the target bytes open (R107), and the fault on an
operand byte without a value, before any request (R64, U3, log 13). -/
def Obligations.PutrawResult : Prop :=
  decode 0x00000032#32 = .ok .putraw ∧
  ∀ s : State, s.Started → transferError s = none →
    (Unwritten s (s.u 3) (s.u 2) → exec .putraw s = .fault .unwrittenBuffer) ∧
    ∀ x, Holds s (s.u 3) (s.u 2) x →
      (s.StoreCovers → s.AnswersOk 1 →
        exec .putraw s = .next
          { transferred s 1 with
            disk := s.diskWith (s.u 0) (target s).1 (target s).2 (bytesOf (s.u 2) x) }) ∧
      (∀ a rest k, s.answers = a :: rest → StoreFails s (targetWrite s x) a k → ∃ t,
        exec .putraw s = .next t ∧
        t = { s.failed (storeError k) (s.argLatched 0) (BitVec.ofNat 32 (target s).1) with
              answers := rest, disk := t.disk, draws := t.draws } ∧
        ∀ d blk off, blk < 2 ^ 32 → off < 2 ^ 32 → ¬InRange d blk off (s.u 0, (target s).1, (target s).2, s.u 2) →
          t.diskByte d blk off = s.diskByte d blk off)

/-- R362: PUT with PUT_PARITY_MODE = 0: the new bytes, and P and Q of the stripe as it then is. An operand byte without a value
stops the model after the n - 2 reads and before the first write (R64, U3, log 13). -/
def Obligations.PutRecomputeResult : Prop :=
  decode 0x00000031#32 = .ok .put ∧
  ∀ s : State, s.Started → s.params.putParityMode = .recompute → transferError s = none → s.StoreCovers →
    (s.AnswersOk (s.n - 2) → Unwritten s (s.u 3) (s.u 2) → exec .put s = .fault .unwrittenBuffer) ∧
    (s.AnswersOk (s.n + 1) → ∀ x, Holds s (s.u 3) (s.u 2) x →
      let st := (target s).1
      let v := s.stored (s.u 0) st (target s).2 (bytesOf (s.u 2) x)
      exec .put s = .next
        { transferred s (s.n + 1) with
          disk := ((v.stored (pDisk s st) st 0 (pParity s.bs (v.stripeData st))).stored (qDisk s st) st 0
            (qParity s.bs (v.stripeData st))).disk })

/-- R363: PUT with PUT_PARITY_MODE = 1: old and new bytes at their own offset, k the data ordinal of the disk. An operand byte
without a value stops the model after the three reads and before the first write (R64, U3, log 13). -/
def Obligations.PutIncrementalResult : Prop :=
  decode 0x00000031#32 = .ok .put ∧
  ∀ s : State, s.Started → s.params.putParityMode = .incremental → transferError s = none → s.StoreCovers →
    (s.AnswersOk 3 → Unwritten s (s.u 3) (s.u 2) → exec .put s = .fault .unwrittenBuffer) ∧
    (s.AnswersOk 6 → ∀ x, Holds s (s.u 3) (s.u 2) x →
      let st := (target s).1
      let off := (target s).2
      let old := fun i => s.diskByte (s.u 0) st (off + i)
      ∃ k, (dataDisks s.n st)[k]? = some (s.u 0) ∧
        exec .put s = .next
          { transferred s 6 with
            disk := (((s.stored (s.u 0) st off (bytesOf (s.u 2) x)).stored (pDisk s st) st off
              (bytesOf (s.u 2) fun i => s.diskByte (pDisk s st) st (off + i) ^^^ old i ^^^ x i)).stored (qDisk s st) st off
              (bytesOf (s.u 2) fun i => s.diskByte (qDisk s st) st (off + i) ^^^ gfMul (gfPow (k : Nat)) (old i) ^^^
                gfMul (gfPow (k : Nat)) (x i))).disk })

/-- R366(a): a successful RECOMPUTE PUT makes (P) and (Q) true of its stripe, a successful INCREMENTAL PUT keeps each. -/
def Obligations.PutKeepsStripeInvariants : Prop :=
  ∀ s t : State, s.Started → exec .put s = .next t → t.seq = .idle → t.err = false →
    let st := (target s).1
    (s.params.putParityMode = .recompute → t.InvariantP st ∧ t.InvariantQ st) ∧
    (s.params.putParityMode = .incremental →
      (s.InvariantP st → t.InvariantP st) ∧ (s.InvariantQ st → t.InvariantQ st))

/-- R367: a successful PUT, then, from any later state in which the block (d, s) still holds the bytes it held after the PUT, a
successful GET of the same address into any buffer, gives back the bytes the buffer of the PUT held at its accept. -/
def Obligations.PutThenGet : Prop :=
  ∀ s t v u : State, s.Started → exec .put s = .next t → t.seq = .idle → t.err = false →
    (∀ off < s.bs, v.diskByte (s.u 0) (target s).1 off = t.diskByte (s.u 0) (target s).1 off) →
    v.params = t.params → v.cfgNdisks = t.cfgNdisks → v.cfgNblocks = t.cfgNblocks →
    v.cfgBsize = t.cfgBsize → v.Started → (∀ i < 3, v.argl[i]? = s.argl[i]?) →
    exec .get v = .next u → u.seq = .idle → u.err = false →
    ∀ j < s.u 2, u.bufByte (v.u 3) j = s.bufByte (s.u 3) j

/-- R106, R107, R109, R403, R405, R461(a): the failing of a BlockStore request, for every command and every request of it,
from wherever the command stands. The command completes with the mapped error and the request's disk and block as context; a
READ leaves the store alone, a WRITE opens its own target bytes only. Every request a command makes lies inside CFG, so a store
provisioned as R461(a) says never answers FAIL(BOUNDS). The last clause is one whole case: a PUT (RECOMPUTE) whose P write
fails keeps its data write and never writes Q. Which input makes the store fail is the model's (log 2, log 18). -/
def Obligations.StoreFailureCompletes : Prop :=
  (∀ (i : Instr) (s : State) (r : Request) (k : Block → Prog) (a : Answer) (rest : List Answer) (kind : StoreFailure),
    s.isStalled = false → (program i s).resume s.history = .ask r k → s.answers = a :: rest → StoreFails s r a kind →
    ∃ t, exec i s = .next t ∧
      t = { s.failed (storeError kind) (BitVec.ofNat 32 r.disk) (BitVec.ofNat 32 r.block) with
            answers := rest, disk := t.disk, draws := t.draws } ∧
      (r.isWrite = false → t.disk = s.disk ∧ t.draws = s.draws) ∧
      ∀ d blk off, blk < 2 ^ 32 → off < 2 ^ 32 → Untouched r d blk off →
        t.diskByte d blk off = s.diskByte d blk off) ∧
  (∀ (i : Instr) (s : State) (h : List Response) (r : Request) (k : Block → Prog),
    (program i s).resume h = .ask r k →
    InsideCfg s r ∧ (s.busy = true → s.Provisioned → (s.receive r).2 ≠ some (.fail .bounds))) ∧
  (∀ s : State, s.Started → s.params.putParityMode = .recompute → transferError s = none → s.StoreCovers →
    ∀ k rest, s.answers = List.replicate (s.n - 1) Answer.ok ++ .fail k :: rest → (k = .bounds → s.geometry = none) →
    ∀ x, Holds s (s.u 3) (s.u 2) x →
    let st := (target s).1
    ∃ t, exec .put s = .next t ∧
      t = { s.failed (storeError k) (BitVec.ofNat 32 (pDisk s st)) (BitVec.ofNat 32 st) with
            answers := rest, disk := t.disk, draws := t.draws } ∧
      ∀ d blk off, blk < 2 ^ 32 → off < 2 ^ 32 → ¬InRange d blk off (pDisk s st, st, 0, s.bs) →
        t.diskByte d blk off = (s.stored (s.u 0) st (target s).2 (bytesOf (s.u 2) x)).diskByte d blk off)

/-! ## Recovery and scrub -/

/-- R310 with the role checks of R313 to R317: the checks of the recovery commands, in order. -/
def Obligations.RecoveryErrors : Prop :=
  ∀ (i : Instr) (s : State), recoveryNeed i ≠ none → s.Started →
    ∀ k d b, recoveryError i s = some (k, d, b) → exec i s = .next (s.failed k d b)

/-- R313: REC_SINGLE_DATA. -/
def Obligations.RecSingleDataResult : Prop :=
  decode 0x00000040#32 = .ok .recSingleData ∧
  ∀ s : State, s.Started → recoveryError .recSingleData s = none → s.StoreCovers → s.AnswersOk (s.n - 1) →
    let st := s.u 2
    exec .recSingleData s = .next
      { recovered s 1#32 (s.n - 1) with
        disk := s.diskWith (s.u 1) st 0
          (xorBlock (s.diskBytes (pDisk s st) st 0 s.bs) (pParity s.bs (s.survivors st [s.u 1]))) }

/-- R314: REC_SINGLE_PARITY. -/
def Obligations.RecSingleParityResult : Prop :=
  decode 0x00000041#32 = .ok .recSingleParity ∧
  ∀ s : State, s.Started → recoveryError .recSingleParity s = none → s.StoreCovers → s.AnswersOk (s.n - 1) →
    let st := s.u 2
    (s.u 1 = pDisk s st → exec .recSingleParity s = .next
      { recovered s 1#32 (s.n - 1) with disk := s.diskWith (s.u 1) st 0 (pParity s.bs (s.stripeData st)) }) ∧
    (s.u 1 = qDisk s st → exec .recSingleParity s = .next
      { recovered s 1#32 (s.n - 1) with disk := s.diskWith (s.u 1) st 0 (qParity s.bs (s.stripeData st)) })

/-- R315 with R213: REC_DOUBLE_DATA; x and y are the data ordinals of the first and the second listed disk. -/
def Obligations.RecDoubleDataResult : Prop :=
  decode 0x00000042#32 = .ok .recDoubleData ∧
  ∀ s : State, s.CfgLegal → s.Started → recoveryError .recDoubleData s = none → s.StoreCovers → s.AnswersOk s.n →
    let st := s.u 2
    let pd := xorBlock (s.diskBytes (pDisk s st) st 0 s.bs) (pParity s.bs (s.survivors st [s.u 1, s.u 3]))
    let qd := xorBlock (s.diskBytes (qDisk s st) st 0 s.bs) (qParity s.bs (s.survivors st [s.u 1, s.u 3]))
    ∃ (x y : Nat) (bx by_ : Block), (dataDisks s.n st)[x]? = some (s.u 1) ∧ (dataDisks s.n st)[y]? = some (s.u 3) ∧
      bx.length = s.bs ∧ by_.length = s.bs ∧
      (∀ i < s.bs, ∃ p q, pd[i]? = some p ∧ qd[i]? = some q ∧
        ∃ dx dy, solve2 x y p q = some (dx, dy) ∧ bx[i]? = some dx ∧ by_[i]? = some dy) ∧
      exec .recDoubleData s = .next
        { recovered s 2#32 s.n with disk := ((s.stored (s.u 1) st 0 bx).stored (s.u 3) st 0 by_).disk }

/-- R316: REC_DOUBLE_PARITY. -/
def Obligations.RecDoubleParityResult : Prop :=
  decode 0x00000043#32 = .ok .recDoubleParity ∧
  ∀ s : State, s.Started → recoveryError .recDoubleParity s = none → s.StoreCovers → s.AnswersOk s.n →
    let st := s.u 2
    exec .recDoubleParity s = .next
      { recovered s 2#32 s.n with
        disk := ((s.stored (pDisk s st) st 0 (pParity s.bs (s.stripeData st))).stored (qDisk s st) st 0
          (qParity s.bs (s.stripeData st))).disk }

/-- R317: REC_DATA_AND_PARITY in its two branches; dd is the data disk, pp the parity disk of the list, x the ordinal of dd. -/
def Obligations.RecDataAndParityResult : Prop :=
  decode 0x00000044#32 = .ok .recDataAndParity ∧
  ∀ s : State, s.Started → recoveryError .recDataAndParity s = none → s.StoreCovers → s.AnswersOk s.n →
    let st := s.u 2
    ∀ dd pp, (isParity s.n (s.u 1) st = true ∧ dd = s.u 3 ∧ pp = s.u 1) ∨
        (isParity s.n (s.u 1) st = false ∧ dd = s.u 1 ∧ pp = s.u 3) →
    ∃ x : Nat, (dataDisks s.n st)[x]? = some dd ∧
      (pp = qDisk s st →
        let r := xorBlock (s.diskBytes (pDisk s st) st 0 s.bs) (pParity s.bs (s.survivors st [dd]))
        exec .recDataAndParity s = .next
          { recovered s 2#32 s.n with
            disk := ((s.stored dd st 0 r).stored pp st 0 (qParity s.bs ((s.survivors st [dd]).set x r))).disk }) ∧
      (pp = pDisk s st →
        let r := scaleBlock (xorBlock (s.diskBytes (qDisk s st) st 0 s.bs) (qParity s.bs (s.survivors st [dd])))
          (gfPow (-(x : Int)))
        exec .recDataAndParity s = .next
          { recovered s 2#32 s.n with
            disk := ((s.stored dd st 0 r).stored pp st 0 (pParity s.bs ((s.survivors st [dd]).set x r))).disk })

/-- R318(b): a stripe that satisfied (P) and (Q), and then lost only the blocks a case names, is restored by a successful run
of that case, byte for byte on every disk; REC_SINGLE_DATA needs only (P). -/
def Obligations.RecoveryRestoresStripe : Prop :=
  ∀ (i : Instr) (before s t : State), recoveryNeed i ≠ none → s.CfgLegal →
    before.cfgNdisks = s.cfgNdisks → before.cfgNblocks = s.cfgNblocks → before.cfgBsize = s.cfgBsize →
    let st := s.u 2
    before.InvariantP st → (i = .recSingleData ∨ before.InvariantQ st) →
    (∀ d < s.n, d ∉ lostDisks i s → s.diskBytes d st 0 s.bs = before.diskBytes d st 0 s.bs) →
    s.Started → exec i s = .next t → t.seq = .idle → t.err = false →
    ∀ d < s.n, t.diskBytes d st 0 s.bs = before.diskBytes d st 0 s.bs

/-- R340 with R366: CHECK passes exactly if every stripe satisfies (P) and (Q), and names the first stripe that does not; it
reads n blocks per stripe it looks at and writes nothing. -/
def Obligations.CheckFindsFirstBadStripe : Prop :=
  decode 0x00000048#32 = .ok .check ∧
  ∀ s : State, s.Started →
    (s.n < 3 → exec .check s = .next (s.failed .layout noContext noContext)) ∧
    (3 ≤ s.n → s.StoreCovers → s.Consistent → s.AnswersOk (s.nb * s.n) →
      exec .check s = .next
        { s.succeeded ((s.res.set 0 0#32).set 1 0#32) with answers := s.answers.drop (s.nb * s.n) }) ∧
    (3 ≤ s.n → s.StoreCovers → ∀ f < s.nb, (∀ st < f, s.InvariantP st ∧ s.InvariantQ st) →
      ¬(s.InvariantP f ∧ s.InvariantQ f) → s.AnswersOk ((f + 1) * s.n) →
      exec .check s = .next
        { s.succeeded ((s.res.set 0 1#32).set 1 (BitVec.ofNat 32 f)) with answers := s.answers.drop ((f + 1) * s.n) })

/-- R366(d): no successful command but PUTRAW and INIT, which the rule leaves out, makes a store inconsistent that satisfied
(P) and (Q) on every stripe. -/
def Obligations.StoreStaysConsistent : Prop :=
  ∀ (i : Instr) (s t : State), i ≠ .putraw → i ≠ .init → s.CfgLegal → s.Consistent → s.Started →
    exec i s = .next t → t.seq = .idle → t.err = false → t.Consistent

/-- R366(b), R405 and the commands' rules as a frame of the BlockStore: from every state, successful or not, a command leaves
every byte alone outside the ranges its rule writes; the ranges are computed as the command computes them. -/
def Obligations.DiskFrame : Prop :=
  ∀ (i : Instr) (s t : State), exec i s = .next t →
    (writeRanges i s = [] → t.disk = s.disk) ∧
    ∀ d blk off, blk < 2 ^ 32 → off < 2 ^ 32 → (∀ r ∈ writeRanges i s, ¬InRange d blk off r) →
      t.diskByte d blk off = s.diskByte d blk off

/-! ## Completion, errors, the register file -/

/-- R402: a command raises no error kind but those of its row, and an illegal word raises IllegalCommand only. -/
def Obligations.ErrorKindsOfEachCommand : Prop :=
  (∀ (i : Instr) (s t : State), exec i s = .next t → t.seq = .idle → t.err = true →
    ∃ k, t.errcode = some k ∧ k ∈ errorKinds i) ∧
  (∀ (s t : State) (e : DecodeError), s.agenda = [] → s.busy = true → decode s.cmd = .error e → step s = .next t →
    t.seq = .idle → t.err = true ∧ t.errcode = some .illegalCommand)

/-- R148, R406: an illegal word completes with IllegalCommand and changes nothing but the completion state and the run's
completion records (log 29). -/
def Obligations.IllegalWordCompletes : Prop :=
  ∀ (s : State) (e : DecodeError), s.agenda = [] → s.Started → decode s.cmd = .error e →
    step s = .next
      { s with
        seq := .idle, done := true, err := true, errcode := some .illegalCommand,
        errOpc := s.cmd, errDisk := 0xFFFFFFFF#32, errStripe := 0xFFFFFFFF#32
        completions := s.completions ++
          [{ cmd := s.cmd, res := s.res, error := some (.illegalCommand, 0xFFFFFFFF#32, 0xFFFFFFFF#32) }] }

/-- A step runs the decoded command: with nothing to come from outside, or while the host polls or waits for an IRQ that is
low, the step of a core in EXEC is `exec` of the command word; and so it is right after `withFetchWord`; a run that has ended
(R478) stays where it is. The events, and that a whole command is one step, are the model's choice (log 8 to 11). -/
def Obligations.StepRunsTheCommand : Prop :=
  (∀ (s : State) (i : Instr), s.busy = true → decode s.cmd = .ok i →
    (s.agenda = [] → step s = exec i s) ∧ (∀ rest, s.agenda = .poll :: rest → step s = exec i s) ∧
    (∀ rest, s.agenda = .waitIrq :: rest → s.irq = false → step s = exec i s)) ∧
  (∀ (s : State) (nbits w : Nat) (i : Instr), decodeTableWord nbits w = some i →
    step (s.withFetchWord nbits w) = exec i (s.withFetchWord nbits w) ∧ (s.withFetchWord nbits w).Started) ∧
  (∀ s : State, s.runEnded = true → step s = .next s)

/-- R143, R144, R147: decoding and encoding agree in both directions, and the illegal words are exactly those R147 lists. -/
def Obligations.EncodeDecodeAgree : Prop :=
  (∀ i, decode (encode i) = .ok i) ∧ (∀ w i, decode w = .ok i → w = encode i) ∧
  (∀ w : Word, (∃ i, decode w = .ok i) ↔ w.wellFormed = true) ∧
  (∀ w : Word, w.extractLsb' 8 24 ≠ 0#24 → decode w = .error .reservedBits) ∧
  (∀ w : Word, w.extractLsb' 8 24 = 0#24 → w.wellFormed = false → decode w = .error .unassignedOpcode)

/-- R144: some words of the opcode map, written out, and some of R147's illegal words (a sanity statement). -/
def Obligations.DecodedWords : Prop :=
  decodeTableWord 32 0x01 = some .gfMul ∧ decodeTableWord 32 0x13 = some .parComputeQ ∧
  decodeTableWord 32 0x23 = some .layResolve ∧ decodeTableWord 32 0x33 = some .get ∧
  decodeTableWord 32 0x44 = some .recDataAndParity ∧ decodeTableWord 32 0x48 = some .check ∧
  decodeTableWord 32 0x00 = none ∧ decodeTableWord 32 0x05 = none ∧ decodeTableWord 32 0x131 = none

/-- R72, R451: every piece of the core's state after reset; the build is the default one (R7, log 1). -/
def Obligations.ResetRegisters : Prop :=
  let s := State.reset
  s.cfgNdisks = 0#32 ∧ s.cfgNblocks = 0#32 ∧ s.cfgBsize = 0#32 ∧ s.ctrlWord = 0#32 ∧ s.statusWord = 0#32 ∧
  s.cmd = 0#32 ∧ (∀ i : Fin 8, s.args[i] = 0#32 ∧ s.argl[i] = 0#32) ∧ (∀ i : Fin 4, s.res[i] = 0#32) ∧
  s.errOpc = 0#32 ∧ s.errDisk = 0#32 ∧ s.errStripe = 0#32 ∧ (∀ b i, s.bufByte b i = none) ∧ s.seq = .idle ∧
  s.irq = false ∧ s.registerWord 0x000 = 0x52364746#32 ∧ s.registerWord 0x004 = 0x00010000#32 ∧
  s.registerWord 0x008 = 0x00000C10#32

/-- The state after reset meets the invariant. -/
def Obligations.ResetMeetsInvariant : Prop := State.reset.Inv

/-- R450, R452, R453: reset at any moment gives every piece of core state its reset value and keeps the BlockStore's contents
outside the target of a write that is outstanding, whose bytes settle in this step (log 28). The inputs to come and the records
of the completions so far stay (log 22, log 29). -/
def Obligations.ResetAbandonsCommand : Prop :=
  ∀ (s : State) (rest : List Event), s.agenda = .reset :: rest → ∃ t, step s = .next t ∧
    t = { State.reset with
          params := s.params, disk := t.disk, geometry := s.geometry, answers := s.answers, agenda := rest,
          rdata := s.rdata, draws := t.draws, completions := s.completions } ∧
    (∀ d blk off, blk < 2 ^ 32 → off < 2 ^ 32 →
      (∀ r, s.outstanding = some r → r.isWrite = true →
        r.block < 2 ^ 32 ∧ r.off + r.len ≤ 2 ^ 32 ∧ ¬InRange d blk off (r.disk, r.block, r.off, r.len)) →
      t.diskByte d blk off = s.diskByte d blk off)

/-- R73, R74: a host write to CMD is accepted while IDLE and dropped, with OVR set, while BUSY = 1. -/
def Obligations.CmdWriteAcceptsOrDrops : Prop :=
  ∀ (s : State) (a w : Word) (rest : List Event), s.agenda = .write a w :: rest → isAligned a = true →
    s.portOffset a = 0x028 →
    (s.busy = false → step s = .next
      { s with
        agenda := rest, cmd := w, argl := s.args, seq := .exec [] .quiet, done := false, err := false, errcode := none }) ∧
    (s.busy = true → step s = .next { s with agenda := rest, ovr := true })

/-- R101, R102, R64, R471, R472: the buffer window. A write sets four bytes, low byte first, and leaves every other byte alone;
a read returns them in the same order and stops where one has no value; while BUSY = 1 a write is dropped with OVR set, and a
read returns some word and changes nothing in the core. That this last holds of a byte without a value too, where R64 alone
would stop, is the model's choice (log 30). -/
def Obligations.WindowAccess : Prop :=
  ∀ (s : State) (a : Word) (rest : List Event), isAligned a = true → s.inWindow (s.portOffset a) = true →
    let w := s.portOffset a - 0x10000
    let b := w / s.params.maxBsize
    let i := w % s.params.maxBsize
    (∀ v, s.agenda = .write a v :: rest → s.busy = false → ∃ t, step s = .next t ∧
      t = { s with agenda := rest, buf := t.buf } ∧
      t.bufByte b i = some (v.extractLsb' 0 8) ∧ t.bufByte b (i + 1) = some (v.extractLsb' 8 8) ∧
      t.bufByte b (i + 2) = some (v.extractLsb' 16 8) ∧ t.bufByte b (i + 3) = some (v.extractLsb' 24 8) ∧
      ∀ b' i', i' < s.params.maxBsize → ¬(b' = b ∧ i ≤ i' ∧ i' < i + 4) → s.params.Legal →
        t.bufByte b' i' = s.bufByte b' i') ∧
    (∀ v, s.agenda = .write a v :: rest → s.busy = true → step s = .next { s with agenda := rest, ovr := true }) ∧
    (s.agenda = .read a :: rest → s.busy = false →
      (∀ f : Nat → Byte, (∀ j < 4, s.bufByte b (i + j) = some (f j)) →
        step s = .next { s with agenda := rest, rdata := f 3 ++ f 2 ++ f 1 ++ f 0 }) ∧
      ((∃ j < 4, s.bufByte b (i + j) = none) → step s = .fault .unwrittenBuffer)) ∧
    (s.agenda = .read a :: rest → s.busy = true → ∃ v,
      step s = .next { s with agenda := rest, rdata := v, draws := s.draws + 1 })

/-- R43, R45, R53, R54, R57: a host write outside the window and CMD changes CTRL.IRQ_EN, the W1C bits of STATUS or one ARG,
and nothing else; every read-only and every reserved offset ignores it. -/
def Obligations.HostRegisterWrites : Prop :=
  ∀ (s : State) (a v : Word) (rest : List Event), s.agenda = .write a v :: rest → isAligned a = true →
    s.inWindow (s.portOffset a) = false → s.portOffset a ≠ 0x028 →
    let off := s.portOffset a
    step s = .next
      { s with
        agenda := rest
        irqEn := if off = 0x020 then v.getLsbD 0 else s.irqEn
        done := if off = 0x024 then s.done && !v.getLsbD 1 else s.done
        ovr := if off = 0x024 then s.ovr && !v.getLsbD 3 else s.ovr
        args := if 0x040 ≤ off ∧ off < 0x060 then s.args.setIfInBounds ((off - 0x040) / 4) v else s.args }

/-- R112: a host read has no side effect: only the value returned, and the count of free values, differ after it. -/
def Obligations.HostReadsHaveNoSideEffects : Prop :=
  ∀ (s t : State) (a : Word) (rest : List Event), s.agenda = .read a :: rest → step s = .next t →
    t = { s with agenda := rest, rdata := t.rdata, draws := t.draws }

/-- R103: a misaligned host access has no step: refused. -/
def Obligations.MisalignedAccessRefused : Prop :=
  ∀ (s : State) (a v : Word) (rest : List Event), a.extractLsb' 0 2 ≠ 0#2 →
    (s.agenda = .read a :: rest → step s = .refused (.misalignedAccess a)) ∧
    (s.agenda = .write a v :: rest → step s = .refused (.misalignedAccess a))

/-- R44 to R62, R45: what each offset of the register map reads as, and that every other offset outside the window reads 0; and
R478: at the end of a run, with no access to come and the core IDLE, the observation is these registers, BUF, DISK, OVR and the
completion records (log 29), and before it there is none. -/
def Obligations.RegisterMapReads : Prop :=
  (∀ (s : State) (a : Word) (rest : List Event), s.params.Legal → s.agenda = .read a :: rest → isAligned a = true →
    (∀ v, (s.portOffset a, v) ∈ registerTable s → step s = .next { s with agenda := rest, rdata := v }) ∧
    (s.inWindow (s.portOffset a) = false → (∀ v, (s.portOffset a, v) ∉ registerTable s) →
      step s = .next { s with agenda := rest, rdata := 0#32 })) ∧
  (∀ s : State, s.params.Legal →
    (s.agenda = [] → s.busy = false →
      s.observation = some
        { registers := registerTable s, buf := s.buf, disk := s.disk, ovr := s.ovr, completions := s.completions }) ∧
    (s.agenda ≠ [] ∨ s.busy = true → s.observation = none))

/-- R56, R473: what the host may write while a command runs (ARG, CTRL, the W1C bit OVR) does not reach the command: it runs
to the same outcome. -/
def Obligations.HostWritesDoNotReachCommand : Prop :=
  ∀ (i : Instr) (s : State) (args : Vector Word 8) (irqEn ovr : Bool),
    exec i { s with args := args, irqEn := irqEn, ovr := ovr } =
      mapNext (fun t => { t with args := args, irqEn := irqEn, ovr := ovr }) (exec i s)

/-- R42, R50, R57, R58, R60 to R62, R76 as a frame of the registers, from every state: no command writes ARG, the latches, CMD,
CTRL or OVR; only INIT writes CFG; a command writes only the RES registers its rule names; an error writes no RES, CFG or BUF
and is recorded; without an error the record stays. R478: a completion adds one record to the run's, of the word, the RES registers
and the error (log 29). -/
def Obligations.CommandRegisterFrame : Prop :=
  ∀ (i : Instr) (s t : State), exec i s = .next t →
    t.params = s.params ∧ t.irqEn = s.irqEn ∧ t.ovr = s.ovr ∧ t.cmd = s.cmd ∧ t.args = s.args ∧ t.argl = s.argl ∧
    t.geometry = s.geometry ∧ t.agenda = s.agenda ∧ t.rdata = s.rdata ∧
    (i ≠ .init → t.cfgNdisks = s.cfgNdisks ∧ t.cfgNblocks = s.cfgNblocks ∧ t.cfgBsize = s.cfgBsize) ∧
    (∀ j, j ∉ resNamed i → t.res.get j = s.res.get j) ∧
    (t.seq = .idle → t.done = true ∧ (t.err = true → t.res = s.res ∧ t.cfgNdisks = s.cfgNdisks ∧
      t.cfgNblocks = s.cfgNblocks ∧ t.cfgBsize = s.cfgBsize ∧ t.buf = s.buf ∧ t.errOpc = s.cmd)) ∧
    (t.seq = .idle → t.err = false → t.errcode = none ∧ t.errOpc = s.errOpc ∧ t.errDisk = s.errDisk ∧
      t.errStripe = s.errStripe) ∧
    (t.seq ≠ .idle → t.done = s.done ∧ t.err = s.err ∧ t.errcode = s.errcode ∧ t.res = s.res ∧ t.buf = s.buf ∧
      t.errOpc = s.errOpc ∧ t.errDisk = s.errDisk ∧ t.errStripe = s.errStripe ∧ t.completions = s.completions) ∧
    (t.seq = .idle → t.completions = s.completions ++
      [{ cmd := s.cmd, res := t.res, error := t.errcode.map fun k => (k, t.errDisk, t.errStripe) }])

/-- R10: MUL_IMPL, MUL_LAT, INV_IMPL, INV_LAT and LANES_LOG2 change no value and no error, and no request or its place in the
order: the program of requests is the same. -/
def Obligations.TimingParametersChangeNothing : Prop :=
  ∀ (i : Instr) (s : State) (mulImpl invImpl : Bool) (mulLat invLat lanesLog2 : Nat),
    let f := fun t : State => { t with
      params := { t.params with
        mulImpl := mulImpl, mulLat := mulLat, invImpl := invImpl, invLat := invLat, lanesLog2 := lanesLog2 } }
    program i (f s) = program i s ∧ exec i (f s) = mapNext f (exec i s)

/-! ## The sequencer -/

/-- R68, R110, R116 (log 11): the core that goes phase by phase and the core that runs the command in one turn agree. After any phase a
command still in EXEC has the outcome it had before the phase, and a phase that completes or stops it gives that outcome. -/
def Obligations.PhasesAgreeWithRun : Prop :=
  ∀ (i : Instr) (s : State), s.busy = true → s.PortConsistent → decode s.cmd = .ok i →
    (∀ t, corePhase s = .next t → t.busy = true → exec i t = exec i s ∧ t.PortConsistent) ∧
    (∀ t, corePhase s = .next t → t.busy = false → exec i s = .next t) ∧
    (∀ f, corePhase s = .fault f → exec i s = .fault f)

/-- Every step keeps the invariant. -/
def Obligations.InvariantKept : Prop := ∀ s t : State, s.Inv → step s = .next t → t.Inv

/-- R319, R405: every command makes all its BlockStore reads before its first write, whatever the responses are; and `exec` is
the run of that program. -/
def Obligations.ReadsBeforeWrites : Prop :=
  ∀ (i : Instr) (s : State), (program i s).ReadsFirst ∧ exec i s = runCommand (program i s) s

/-- R77: a request that is never answered, whichever of the command's requests it is, leaves the command in EXEC with BUSY = 1,
where it stays until a reset, and the run has no end state (R478). That a `silent` entry of the answers to come brings this
about, and that the core's step then answers the same state, are the model's choice (log 2, log 3). -/
def Obligations.StalledCommandWaits : Prop :=
  (∀ (i : Instr) (s : State) (r : Request) (k : Block → Prog) (rest : List Answer), s.isStalled = false →
    (program i s).resume s.history = .ask r k → s.answers = .silent :: rest →
    exec i s = .next { s with answers := rest, seq := .exec s.history (.stalled r) }) ∧
  (∀ (s : State) (h : List Response) (r : Request), s.seq = .exec h (.stalled r) →
    s.busy = true ∧ s.runEnded = false ∧ s.observation = none ∧ (s.agenda = [] → step s = .next s) ∧
    (∀ e rest t, s.agenda = e :: rest → e ≠ .reset → step s = .next t → t.busy = true ∧ t.seq = s.seq) ∧
    (∀ rest, s.agenda = .reset :: rest → ∃ t, step s = .next t ∧ t.busy = false))

/-- R71, R415: IRQ is DONE and IRQ_EN. It is high after every completion with IRQ_EN = 1, and an accept, a W1C write of DONE and
IRQ_EN = 0 each drop it. -/
def Obligations.IrqRisesAndClears : Prop :=
  (∀ s : State, s.irq = (s.done && s.irqEn)) ∧
  (∀ (i : Instr) (s t : State), exec i s = .next t → t.seq = .idle → t.irq = s.irqEn) ∧
  (∀ (s : State) (w : Word), (s.accept w).irq = false) ∧
  (∀ (s : State) (v : Word), v.getLsbD 1 = true → (s.writeStatus v).irq = false) ∧
  (∀ (s : State) (v : Word), v.getLsbD 0 = false → (s.writeCtrl v).irq = false) ∧
  (∀ (s : State) (v : Word), v.getLsbD 0 = true → (s.writeCtrl v).irq = s.done)
end

