-- ==== Sys2Proof/Laws/Layout.lean ====
section
/-! SUPPORT. The layout functions: parity disks are disks, distinct; the data disks of a stripe are the other ones; the ordinal
is the index among them. -/

namespace Sys2Proof.Machine

variable {n d s : Nat}

/-- A parity disk is a disk (R281). -/
theorem parityDisk_lt (hn : 0 < n) (s p : Nat) : parityDisk n s p < n := by
  unfold parityDisk
  have h0 := Int.emod_nonneg (((s : Int) + 1) * ((n : Int) - 1) - 1 + p) (show (n : Int) ≠ 0 by omega)
  have h1 := Int.emod_lt_of_pos (((s : Int) + 1) * ((n : Int) - 1) - 1 + p) (show (0 : Int) < n by omega)
  omega

/-- The two parity disks of a stripe differ (R281). -/
theorem parityDisk_ne (hn : 2 ≤ n) (s : Nat) : parityDisk n s 0 ≠ parityDisk n s 1 := by
  unfold parityDisk
  generalize ((s : Int) + 1) * ((n : Int) - 1) - 1 = z
  have hn0 : (n : Int) ≠ 0 := by omega
  have hp : (0 : Int) < n := by omega
  have h0 := Int.emod_nonneg z hn0
  have h1 := Int.emod_nonneg (z + 1) hn0
  have e : (z + 1) % (n : Int) = (z % n + 1) % n := by simp [Int.add_emod]
  have l := Int.emod_lt_of_pos z hp
  intro h
  simp only [Nat.cast_zero, add_zero, Nat.cast_one] at h
  have h' : z % (n : Int) = (z + 1) % n := by omega
  rw [e] at h'
  rcases Int.lt_or_le (z % n + 1) n with hl | hl
  · rw [Int.emod_eq_of_lt (by omega) hl] at h'; omega
  · have : z % (n : Int) + 1 = n := by omega
    rw [this, Int.emod_self] at h'; omega

theorem isParity_iff : isParity n d s = true ↔ d = parityDisk n s 0 ∨ d = parityDisk n s 1 := by
  simp [isParity]

/-- The data disks of a stripe (R283). -/
theorem mem_dataDisks : d ∈ dataDisks n s ↔ d < n ∧ isParity n d s = false := by simp [dataDisks]

theorem dataDisks_nodup (n s : Nat) : (dataDisks n s).Nodup := List.nodup_range.filter _

/-- How many numbers below `d` are neither `a` nor `b`. -/
theorem length_filter_range {a b : Nat} (hab : a ≠ b) (d : Nat) :
    ((List.range d).filter (fun x => !(x == a || x == b))).length =
      d - (if a < d then 1 else 0) - (if b < d then 1 else 0) := by
  induction d with
  | zero => simp
  | succ d ih =>
    rw [List.range_succ, List.filter_append, List.length_append, ih]
    by_cases ha : d = a <;> by_cases hb : d = b <;> simp [ha, hb] <;> split_ifs <;> omega

/-- The ordinal of a data disk is its index in the list of data disks (R283). -/
theorem dataDisks_ordinal (hn : 2 ≤ n) (hd : d < n) (h : isParity n d s = false) :
    (dataDisks n s)[ordinal n d s]? = some d := by
  obtain ⟨m, rfl⟩ : ∃ m, n = d + (m + 1) := ⟨n - d - 1, by omega⟩
  have hlen := length_filter_range (parityDisk_ne hn s) d
  rw [ordinal, ← hlen]
  unfold dataDisks
  rw [List.range_add, List.filter_append, List.range_succ_eq_map, List.map_cons, List.filter_cons]
  have hd0 : (!isParity (d + (m + 1)) (d + 0) s) = true := by simpa using h
  rw [if_pos hd0]
  exact (List.getElem?_append_right (Nat.le_refl _)).trans (by simp)

end Sys2Proof.Machine
end

