-- ==== Sys2Proof/Laws/State.lean ====
section
/-! SUPPORT. One lemma per field per named update of the state: what the update makes of the field, true by rfl. -/

namespace Sys2Proof.Machine

/-! ## State.complete -/

@[simp] theorem complete_params (s : State) (e : Effects) : (s.complete e).params = s.params := rfl
@[simp] theorem complete_cfgNdisks (s : State) (e : Effects) : (s.complete e).cfgNdisks = (match e.cfg with | none => s.cfgNdisks | some c => c.1) := rfl
@[simp] theorem complete_cfgNblocks (s : State) (e : Effects) : (s.complete e).cfgNblocks = (match e.cfg with | none => s.cfgNblocks | some c => c.2.1) := rfl
@[simp] theorem complete_cfgBsize (s : State) (e : Effects) : (s.complete e).cfgBsize = (match e.cfg with | none => s.cfgBsize | some c => c.2.2) := rfl
@[simp] theorem complete_irqEn (s : State) (e : Effects) : (s.complete e).irqEn = s.irqEn := rfl
@[simp] theorem complete_done (s : State) (e : Effects) : (s.complete e).done = true := rfl
@[simp] theorem complete_err (s : State) (e : Effects) : (s.complete e).err = false := rfl
@[simp] theorem complete_ovr (s : State) (e : Effects) : (s.complete e).ovr = s.ovr := rfl
@[simp] theorem complete_errcode (s : State) (e : Effects) : (s.complete e).errcode = none := rfl
@[simp] theorem complete_cmd (s : State) (e : Effects) : (s.complete e).cmd = s.cmd := rfl
@[simp] theorem complete_args (s : State) (e : Effects) : (s.complete e).args = s.args := rfl
@[simp] theorem complete_argl (s : State) (e : Effects) : (s.complete e).argl = s.argl := rfl
@[simp] theorem complete_res (s : State) (e : Effects) : (s.complete e).res = applyRes s.res e.res := rfl
@[simp] theorem complete_errOpc (s : State) (e : Effects) : (s.complete e).errOpc = s.errOpc := rfl
@[simp] theorem complete_errDisk (s : State) (e : Effects) : (s.complete e).errDisk = s.errDisk := rfl
@[simp] theorem complete_errStripe (s : State) (e : Effects) : (s.complete e).errStripe = s.errStripe := rfl
@[simp] theorem complete_buf (s : State) (e : Effects) : (s.complete e).buf = (match e.buf with | none => s.buf | some (b, bytes) => s.bufWith b 0 bytes) := rfl
@[simp] theorem complete_seq (s : State) (e : Effects) : (s.complete e).seq = .idle := rfl
@[simp] theorem complete_disk (s : State) (e : Effects) : (s.complete e).disk = s.disk := rfl
@[simp] theorem complete_geometry (s : State) (e : Effects) : (s.complete e).geometry = s.geometry := rfl
@[simp] theorem complete_answers (s : State) (e : Effects) : (s.complete e).answers = s.answers := rfl
@[simp] theorem complete_agenda (s : State) (e : Effects) : (s.complete e).agenda = s.agenda := rfl
@[simp] theorem complete_rdata (s : State) (e : Effects) : (s.complete e).rdata = s.rdata := rfl
@[simp] theorem complete_draws (s : State) (e : Effects) : (s.complete e).draws = s.draws := rfl
@[simp] theorem complete_completions (s : State) (e : Effects) : (s.complete e).completions = s.recorded (applyRes s.res e.res) none := rfl

/-! ## State.completeError -/

@[simp] theorem completeError_params (s : State) (kind : ErrorKind) (d b : Word) : (s.completeError kind d b).params = s.params := rfl
@[simp] theorem completeError_cfgNdisks (s : State) (kind : ErrorKind) (d b : Word) : (s.completeError kind d b).cfgNdisks = s.cfgNdisks := rfl
@[simp] theorem completeError_cfgNblocks (s : State) (kind : ErrorKind) (d b : Word) : (s.completeError kind d b).cfgNblocks = s.cfgNblocks := rfl
@[simp] theorem completeError_cfgBsize (s : State) (kind : ErrorKind) (d b : Word) : (s.completeError kind d b).cfgBsize = s.cfgBsize := rfl
@[simp] theorem completeError_irqEn (s : State) (kind : ErrorKind) (d b : Word) : (s.completeError kind d b).irqEn = s.irqEn := rfl
@[simp] theorem completeError_done (s : State) (kind : ErrorKind) (d b : Word) : (s.completeError kind d b).done = true := rfl
@[simp] theorem completeError_err (s : State) (kind : ErrorKind) (d b : Word) : (s.completeError kind d b).err = true := rfl
@[simp] theorem completeError_ovr (s : State) (kind : ErrorKind) (d b : Word) : (s.completeError kind d b).ovr = s.ovr := rfl
@[simp] theorem completeError_errcode (s : State) (kind : ErrorKind) (d b : Word) : (s.completeError kind d b).errcode = some kind := rfl
@[simp] theorem completeError_cmd (s : State) (kind : ErrorKind) (d b : Word) : (s.completeError kind d b).cmd = s.cmd := rfl
@[simp] theorem completeError_args (s : State) (kind : ErrorKind) (d b : Word) : (s.completeError kind d b).args = s.args := rfl
@[simp] theorem completeError_argl (s : State) (kind : ErrorKind) (d b : Word) : (s.completeError kind d b).argl = s.argl := rfl
@[simp] theorem completeError_res (s : State) (kind : ErrorKind) (d b : Word) : (s.completeError kind d b).res = s.res := rfl
@[simp] theorem completeError_errOpc (s : State) (kind : ErrorKind) (d b : Word) : (s.completeError kind d b).errOpc = s.cmd := rfl
@[simp] theorem completeError_errDisk (s : State) (kind : ErrorKind) (d b : Word) : (s.completeError kind d b).errDisk = d := rfl
@[simp] theorem completeError_errStripe (s : State) (kind : ErrorKind) (d b : Word) : (s.completeError kind d b).errStripe = b := rfl
@[simp] theorem completeError_buf (s : State) (kind : ErrorKind) (d b : Word) : (s.completeError kind d b).buf = s.buf := rfl
@[simp] theorem completeError_seq (s : State) (kind : ErrorKind) (d b : Word) : (s.completeError kind d b).seq = .idle := rfl
@[simp] theorem completeError_disk (s : State) (kind : ErrorKind) (d b : Word) : (s.completeError kind d b).disk = s.disk := rfl
@[simp] theorem completeError_geometry (s : State) (kind : ErrorKind) (d b : Word) : (s.completeError kind d b).geometry = s.geometry := rfl
@[simp] theorem completeError_answers (s : State) (kind : ErrorKind) (d b : Word) : (s.completeError kind d b).answers = s.answers := rfl
@[simp] theorem completeError_agenda (s : State) (kind : ErrorKind) (d b : Word) : (s.completeError kind d b).agenda = s.agenda := rfl
@[simp] theorem completeError_rdata (s : State) (kind : ErrorKind) (d b : Word) : (s.completeError kind d b).rdata = s.rdata := rfl
@[simp] theorem completeError_draws (s : State) (kind : ErrorKind) (d b : Word) : (s.completeError kind d b).draws = s.draws := rfl
@[simp] theorem completeError_completions (s : State) (kind : ErrorKind) (d b : Word) : (s.completeError kind d b).completions = s.recorded s.res (some (kind, d, b)) := rfl

/-! ## State.accept -/

@[simp] theorem accept_params (s : State) (w : Word) : (s.accept w).params = s.params := rfl
@[simp] theorem accept_cfgNdisks (s : State) (w : Word) : (s.accept w).cfgNdisks = s.cfgNdisks := rfl
@[simp] theorem accept_cfgNblocks (s : State) (w : Word) : (s.accept w).cfgNblocks = s.cfgNblocks := rfl
@[simp] theorem accept_cfgBsize (s : State) (w : Word) : (s.accept w).cfgBsize = s.cfgBsize := rfl
@[simp] theorem accept_irqEn (s : State) (w : Word) : (s.accept w).irqEn = s.irqEn := rfl
@[simp] theorem accept_done (s : State) (w : Word) : (s.accept w).done = false := rfl
@[simp] theorem accept_err (s : State) (w : Word) : (s.accept w).err = false := rfl
@[simp] theorem accept_ovr (s : State) (w : Word) : (s.accept w).ovr = s.ovr := rfl
@[simp] theorem accept_errcode (s : State) (w : Word) : (s.accept w).errcode = none := rfl
@[simp] theorem accept_cmd (s : State) (w : Word) : (s.accept w).cmd = w := rfl
@[simp] theorem accept_args (s : State) (w : Word) : (s.accept w).args = s.args := rfl
@[simp] theorem accept_argl (s : State) (w : Word) : (s.accept w).argl = s.args := rfl
@[simp] theorem accept_res (s : State) (w : Word) : (s.accept w).res = s.res := rfl
@[simp] theorem accept_errOpc (s : State) (w : Word) : (s.accept w).errOpc = s.errOpc := rfl
@[simp] theorem accept_errDisk (s : State) (w : Word) : (s.accept w).errDisk = s.errDisk := rfl
@[simp] theorem accept_errStripe (s : State) (w : Word) : (s.accept w).errStripe = s.errStripe := rfl
@[simp] theorem accept_buf (s : State) (w : Word) : (s.accept w).buf = s.buf := rfl
@[simp] theorem accept_seq (s : State) (w : Word) : (s.accept w).seq = .exec [] .quiet := rfl
@[simp] theorem accept_disk (s : State) (w : Word) : (s.accept w).disk = s.disk := rfl
@[simp] theorem accept_geometry (s : State) (w : Word) : (s.accept w).geometry = s.geometry := rfl
@[simp] theorem accept_answers (s : State) (w : Word) : (s.accept w).answers = s.answers := rfl
@[simp] theorem accept_agenda (s : State) (w : Word) : (s.accept w).agenda = s.agenda := rfl
@[simp] theorem accept_rdata (s : State) (w : Word) : (s.accept w).rdata = s.rdata := rfl
@[simp] theorem accept_draws (s : State) (w : Word) : (s.accept w).draws = s.draws := rfl
@[simp] theorem accept_completions (s : State) (w : Word) : (s.accept w).completions = s.completions := rfl

/-! ## State.writeStatus -/

@[simp] theorem writeStatus_params (s : State) (v : Word) : (s.writeStatus v).params = s.params := rfl
@[simp] theorem writeStatus_cfgNdisks (s : State) (v : Word) : (s.writeStatus v).cfgNdisks = s.cfgNdisks := rfl
@[simp] theorem writeStatus_cfgNblocks (s : State) (v : Word) : (s.writeStatus v).cfgNblocks = s.cfgNblocks := rfl
@[simp] theorem writeStatus_cfgBsize (s : State) (v : Word) : (s.writeStatus v).cfgBsize = s.cfgBsize := rfl
@[simp] theorem writeStatus_irqEn (s : State) (v : Word) : (s.writeStatus v).irqEn = s.irqEn := rfl
@[simp] theorem writeStatus_done (s : State) (v : Word) : (s.writeStatus v).done = (s.done && !v.getLsbD 1) := rfl
@[simp] theorem writeStatus_err (s : State) (v : Word) : (s.writeStatus v).err = s.err := rfl
@[simp] theorem writeStatus_ovr (s : State) (v : Word) : (s.writeStatus v).ovr = (s.ovr && !v.getLsbD 3) := rfl
@[simp] theorem writeStatus_errcode (s : State) (v : Word) : (s.writeStatus v).errcode = s.errcode := rfl
@[simp] theorem writeStatus_cmd (s : State) (v : Word) : (s.writeStatus v).cmd = s.cmd := rfl
@[simp] theorem writeStatus_args (s : State) (v : Word) : (s.writeStatus v).args = s.args := rfl
@[simp] theorem writeStatus_argl (s : State) (v : Word) : (s.writeStatus v).argl = s.argl := rfl
@[simp] theorem writeStatus_res (s : State) (v : Word) : (s.writeStatus v).res = s.res := rfl
@[simp] theorem writeStatus_errOpc (s : State) (v : Word) : (s.writeStatus v).errOpc = s.errOpc := rfl
@[simp] theorem writeStatus_errDisk (s : State) (v : Word) : (s.writeStatus v).errDisk = s.errDisk := rfl
@[simp] theorem writeStatus_errStripe (s : State) (v : Word) : (s.writeStatus v).errStripe = s.errStripe := rfl
@[simp] theorem writeStatus_buf (s : State) (v : Word) : (s.writeStatus v).buf = s.buf := rfl
@[simp] theorem writeStatus_seq (s : State) (v : Word) : (s.writeStatus v).seq = s.seq := rfl
@[simp] theorem writeStatus_disk (s : State) (v : Word) : (s.writeStatus v).disk = s.disk := rfl
@[simp] theorem writeStatus_geometry (s : State) (v : Word) : (s.writeStatus v).geometry = s.geometry := rfl
@[simp] theorem writeStatus_answers (s : State) (v : Word) : (s.writeStatus v).answers = s.answers := rfl
@[simp] theorem writeStatus_agenda (s : State) (v : Word) : (s.writeStatus v).agenda = s.agenda := rfl
@[simp] theorem writeStatus_rdata (s : State) (v : Word) : (s.writeStatus v).rdata = s.rdata := rfl
@[simp] theorem writeStatus_draws (s : State) (v : Word) : (s.writeStatus v).draws = s.draws := rfl
@[simp] theorem writeStatus_completions (s : State) (v : Word) : (s.writeStatus v).completions = s.completions := rfl

/-! ## State.writeCtrl -/

@[simp] theorem writeCtrl_params (s : State) (v : Word) : (s.writeCtrl v).params = s.params := rfl
@[simp] theorem writeCtrl_cfgNdisks (s : State) (v : Word) : (s.writeCtrl v).cfgNdisks = s.cfgNdisks := rfl
@[simp] theorem writeCtrl_cfgNblocks (s : State) (v : Word) : (s.writeCtrl v).cfgNblocks = s.cfgNblocks := rfl
@[simp] theorem writeCtrl_cfgBsize (s : State) (v : Word) : (s.writeCtrl v).cfgBsize = s.cfgBsize := rfl
@[simp] theorem writeCtrl_irqEn (s : State) (v : Word) : (s.writeCtrl v).irqEn = v.getLsbD 0 := rfl
@[simp] theorem writeCtrl_done (s : State) (v : Word) : (s.writeCtrl v).done = s.done := rfl
@[simp] theorem writeCtrl_err (s : State) (v : Word) : (s.writeCtrl v).err = s.err := rfl
@[simp] theorem writeCtrl_ovr (s : State) (v : Word) : (s.writeCtrl v).ovr = s.ovr := rfl
@[simp] theorem writeCtrl_errcode (s : State) (v : Word) : (s.writeCtrl v).errcode = s.errcode := rfl
@[simp] theorem writeCtrl_cmd (s : State) (v : Word) : (s.writeCtrl v).cmd = s.cmd := rfl
@[simp] theorem writeCtrl_args (s : State) (v : Word) : (s.writeCtrl v).args = s.args := rfl
@[simp] theorem writeCtrl_argl (s : State) (v : Word) : (s.writeCtrl v).argl = s.argl := rfl
@[simp] theorem writeCtrl_res (s : State) (v : Word) : (s.writeCtrl v).res = s.res := rfl
@[simp] theorem writeCtrl_errOpc (s : State) (v : Word) : (s.writeCtrl v).errOpc = s.errOpc := rfl
@[simp] theorem writeCtrl_errDisk (s : State) (v : Word) : (s.writeCtrl v).errDisk = s.errDisk := rfl
@[simp] theorem writeCtrl_errStripe (s : State) (v : Word) : (s.writeCtrl v).errStripe = s.errStripe := rfl
@[simp] theorem writeCtrl_buf (s : State) (v : Word) : (s.writeCtrl v).buf = s.buf := rfl
@[simp] theorem writeCtrl_seq (s : State) (v : Word) : (s.writeCtrl v).seq = s.seq := rfl
@[simp] theorem writeCtrl_disk (s : State) (v : Word) : (s.writeCtrl v).disk = s.disk := rfl
@[simp] theorem writeCtrl_geometry (s : State) (v : Word) : (s.writeCtrl v).geometry = s.geometry := rfl
@[simp] theorem writeCtrl_answers (s : State) (v : Word) : (s.writeCtrl v).answers = s.answers := rfl
@[simp] theorem writeCtrl_agenda (s : State) (v : Word) : (s.writeCtrl v).agenda = s.agenda := rfl
@[simp] theorem writeCtrl_rdata (s : State) (v : Word) : (s.writeCtrl v).rdata = s.rdata := rfl
@[simp] theorem writeCtrl_draws (s : State) (v : Word) : (s.writeCtrl v).draws = s.draws := rfl
@[simp] theorem writeCtrl_completions (s : State) (v : Word) : (s.writeCtrl v).completions = s.completions := rfl

/-! ## State.overrun -/

@[simp] theorem overrun_params (s : State) : s.overrun.params = s.params := rfl
@[simp] theorem overrun_cfgNdisks (s : State) : s.overrun.cfgNdisks = s.cfgNdisks := rfl
@[simp] theorem overrun_cfgNblocks (s : State) : s.overrun.cfgNblocks = s.cfgNblocks := rfl
@[simp] theorem overrun_cfgBsize (s : State) : s.overrun.cfgBsize = s.cfgBsize := rfl
@[simp] theorem overrun_irqEn (s : State) : s.overrun.irqEn = s.irqEn := rfl
@[simp] theorem overrun_done (s : State) : s.overrun.done = s.done := rfl
@[simp] theorem overrun_err (s : State) : s.overrun.err = s.err := rfl
@[simp] theorem overrun_ovr (s : State) : s.overrun.ovr = true := rfl
@[simp] theorem overrun_errcode (s : State) : s.overrun.errcode = s.errcode := rfl
@[simp] theorem overrun_cmd (s : State) : s.overrun.cmd = s.cmd := rfl
@[simp] theorem overrun_args (s : State) : s.overrun.args = s.args := rfl
@[simp] theorem overrun_argl (s : State) : s.overrun.argl = s.argl := rfl
@[simp] theorem overrun_res (s : State) : s.overrun.res = s.res := rfl
@[simp] theorem overrun_errOpc (s : State) : s.overrun.errOpc = s.errOpc := rfl
@[simp] theorem overrun_errDisk (s : State) : s.overrun.errDisk = s.errDisk := rfl
@[simp] theorem overrun_errStripe (s : State) : s.overrun.errStripe = s.errStripe := rfl
@[simp] theorem overrun_buf (s : State) : s.overrun.buf = s.buf := rfl
@[simp] theorem overrun_seq (s : State) : s.overrun.seq = s.seq := rfl
@[simp] theorem overrun_disk (s : State) : s.overrun.disk = s.disk := rfl
@[simp] theorem overrun_geometry (s : State) : s.overrun.geometry = s.geometry := rfl
@[simp] theorem overrun_answers (s : State) : s.overrun.answers = s.answers := rfl
@[simp] theorem overrun_agenda (s : State) : s.overrun.agenda = s.agenda := rfl
@[simp] theorem overrun_rdata (s : State) : s.overrun.rdata = s.rdata := rfl
@[simp] theorem overrun_draws (s : State) : s.overrun.draws = s.draws := rfl
@[simp] theorem overrun_completions (s : State) : s.overrun.completions = s.completions := rfl

/-! ## State.returned -/

@[simp] theorem returned_params (s : State) (v : Word) : (s.returned v).params = s.params := rfl
@[simp] theorem returned_cfgNdisks (s : State) (v : Word) : (s.returned v).cfgNdisks = s.cfgNdisks := rfl
@[simp] theorem returned_cfgNblocks (s : State) (v : Word) : (s.returned v).cfgNblocks = s.cfgNblocks := rfl
@[simp] theorem returned_cfgBsize (s : State) (v : Word) : (s.returned v).cfgBsize = s.cfgBsize := rfl
@[simp] theorem returned_irqEn (s : State) (v : Word) : (s.returned v).irqEn = s.irqEn := rfl
@[simp] theorem returned_done (s : State) (v : Word) : (s.returned v).done = s.done := rfl
@[simp] theorem returned_err (s : State) (v : Word) : (s.returned v).err = s.err := rfl
@[simp] theorem returned_ovr (s : State) (v : Word) : (s.returned v).ovr = s.ovr := rfl
@[simp] theorem returned_errcode (s : State) (v : Word) : (s.returned v).errcode = s.errcode := rfl
@[simp] theorem returned_cmd (s : State) (v : Word) : (s.returned v).cmd = s.cmd := rfl
@[simp] theorem returned_args (s : State) (v : Word) : (s.returned v).args = s.args := rfl
@[simp] theorem returned_argl (s : State) (v : Word) : (s.returned v).argl = s.argl := rfl
@[simp] theorem returned_res (s : State) (v : Word) : (s.returned v).res = s.res := rfl
@[simp] theorem returned_errOpc (s : State) (v : Word) : (s.returned v).errOpc = s.errOpc := rfl
@[simp] theorem returned_errDisk (s : State) (v : Word) : (s.returned v).errDisk = s.errDisk := rfl
@[simp] theorem returned_errStripe (s : State) (v : Word) : (s.returned v).errStripe = s.errStripe := rfl
@[simp] theorem returned_buf (s : State) (v : Word) : (s.returned v).buf = s.buf := rfl
@[simp] theorem returned_seq (s : State) (v : Word) : (s.returned v).seq = s.seq := rfl
@[simp] theorem returned_disk (s : State) (v : Word) : (s.returned v).disk = s.disk := rfl
@[simp] theorem returned_geometry (s : State) (v : Word) : (s.returned v).geometry = s.geometry := rfl
@[simp] theorem returned_answers (s : State) (v : Word) : (s.returned v).answers = s.answers := rfl
@[simp] theorem returned_agenda (s : State) (v : Word) : (s.returned v).agenda = s.agenda := rfl
@[simp] theorem returned_rdata (s : State) (v : Word) : (s.returned v).rdata = v := rfl
@[simp] theorem returned_draws (s : State) (v : Word) : (s.returned v).draws = s.draws := rfl
@[simp] theorem returned_completions (s : State) (v : Word) : (s.returned v).completions = s.completions := rfl

/-! ## State.writeArg -/

@[simp] theorem writeArg_params (s : State) (i : Nat) (v : Word) : (s.writeArg i v).params = s.params := rfl
@[simp] theorem writeArg_cfgNdisks (s : State) (i : Nat) (v : Word) : (s.writeArg i v).cfgNdisks = s.cfgNdisks := rfl
@[simp] theorem writeArg_cfgNblocks (s : State) (i : Nat) (v : Word) : (s.writeArg i v).cfgNblocks = s.cfgNblocks := rfl
@[simp] theorem writeArg_cfgBsize (s : State) (i : Nat) (v : Word) : (s.writeArg i v).cfgBsize = s.cfgBsize := rfl
@[simp] theorem writeArg_irqEn (s : State) (i : Nat) (v : Word) : (s.writeArg i v).irqEn = s.irqEn := rfl
@[simp] theorem writeArg_done (s : State) (i : Nat) (v : Word) : (s.writeArg i v).done = s.done := rfl
@[simp] theorem writeArg_err (s : State) (i : Nat) (v : Word) : (s.writeArg i v).err = s.err := rfl
@[simp] theorem writeArg_ovr (s : State) (i : Nat) (v : Word) : (s.writeArg i v).ovr = s.ovr := rfl
@[simp] theorem writeArg_errcode (s : State) (i : Nat) (v : Word) : (s.writeArg i v).errcode = s.errcode := rfl
@[simp] theorem writeArg_cmd (s : State) (i : Nat) (v : Word) : (s.writeArg i v).cmd = s.cmd := rfl
@[simp] theorem writeArg_args (s : State) (i : Nat) (v : Word) : (s.writeArg i v).args = s.args.setIfInBounds i v := rfl
@[simp] theorem writeArg_argl (s : State) (i : Nat) (v : Word) : (s.writeArg i v).argl = s.argl := rfl
@[simp] theorem writeArg_res (s : State) (i : Nat) (v : Word) : (s.writeArg i v).res = s.res := rfl
@[simp] theorem writeArg_errOpc (s : State) (i : Nat) (v : Word) : (s.writeArg i v).errOpc = s.errOpc := rfl
@[simp] theorem writeArg_errDisk (s : State) (i : Nat) (v : Word) : (s.writeArg i v).errDisk = s.errDisk := rfl
@[simp] theorem writeArg_errStripe (s : State) (i : Nat) (v : Word) : (s.writeArg i v).errStripe = s.errStripe := rfl
@[simp] theorem writeArg_buf (s : State) (i : Nat) (v : Word) : (s.writeArg i v).buf = s.buf := rfl
@[simp] theorem writeArg_seq (s : State) (i : Nat) (v : Word) : (s.writeArg i v).seq = s.seq := rfl
@[simp] theorem writeArg_disk (s : State) (i : Nat) (v : Word) : (s.writeArg i v).disk = s.disk := rfl
@[simp] theorem writeArg_geometry (s : State) (i : Nat) (v : Word) : (s.writeArg i v).geometry = s.geometry := rfl
@[simp] theorem writeArg_answers (s : State) (i : Nat) (v : Word) : (s.writeArg i v).answers = s.answers := rfl
@[simp] theorem writeArg_agenda (s : State) (i : Nat) (v : Word) : (s.writeArg i v).agenda = s.agenda := rfl
@[simp] theorem writeArg_rdata (s : State) (i : Nat) (v : Word) : (s.writeArg i v).rdata = s.rdata := rfl
@[simp] theorem writeArg_draws (s : State) (i : Nat) (v : Word) : (s.writeArg i v).draws = s.draws := rfl
@[simp] theorem writeArg_completions (s : State) (i : Nat) (v : Word) : (s.writeArg i v).completions = s.completions := rfl

/-! ## State.afterEvent -/

@[simp] theorem afterEvent_params (s : State) (rest : List Event) : (s.afterEvent rest).params = s.params := rfl
@[simp] theorem afterEvent_cfgNdisks (s : State) (rest : List Event) : (s.afterEvent rest).cfgNdisks = s.cfgNdisks := rfl
@[simp] theorem afterEvent_cfgNblocks (s : State) (rest : List Event) : (s.afterEvent rest).cfgNblocks = s.cfgNblocks := rfl
@[simp] theorem afterEvent_cfgBsize (s : State) (rest : List Event) : (s.afterEvent rest).cfgBsize = s.cfgBsize := rfl
@[simp] theorem afterEvent_irqEn (s : State) (rest : List Event) : (s.afterEvent rest).irqEn = s.irqEn := rfl
@[simp] theorem afterEvent_done (s : State) (rest : List Event) : (s.afterEvent rest).done = s.done := rfl
@[simp] theorem afterEvent_err (s : State) (rest : List Event) : (s.afterEvent rest).err = s.err := rfl
@[simp] theorem afterEvent_ovr (s : State) (rest : List Event) : (s.afterEvent rest).ovr = s.ovr := rfl
@[simp] theorem afterEvent_errcode (s : State) (rest : List Event) : (s.afterEvent rest).errcode = s.errcode := rfl
@[simp] theorem afterEvent_cmd (s : State) (rest : List Event) : (s.afterEvent rest).cmd = s.cmd := rfl
@[simp] theorem afterEvent_args (s : State) (rest : List Event) : (s.afterEvent rest).args = s.args := rfl
@[simp] theorem afterEvent_argl (s : State) (rest : List Event) : (s.afterEvent rest).argl = s.argl := rfl
@[simp] theorem afterEvent_res (s : State) (rest : List Event) : (s.afterEvent rest).res = s.res := rfl
@[simp] theorem afterEvent_errOpc (s : State) (rest : List Event) : (s.afterEvent rest).errOpc = s.errOpc := rfl
@[simp] theorem afterEvent_errDisk (s : State) (rest : List Event) : (s.afterEvent rest).errDisk = s.errDisk := rfl
@[simp] theorem afterEvent_errStripe (s : State) (rest : List Event) : (s.afterEvent rest).errStripe = s.errStripe := rfl
@[simp] theorem afterEvent_buf (s : State) (rest : List Event) : (s.afterEvent rest).buf = s.buf := rfl
@[simp] theorem afterEvent_seq (s : State) (rest : List Event) : (s.afterEvent rest).seq = s.seq := rfl
@[simp] theorem afterEvent_disk (s : State) (rest : List Event) : (s.afterEvent rest).disk = s.disk := rfl
@[simp] theorem afterEvent_geometry (s : State) (rest : List Event) : (s.afterEvent rest).geometry = s.geometry := rfl
@[simp] theorem afterEvent_answers (s : State) (rest : List Event) : (s.afterEvent rest).answers = s.answers := rfl
@[simp] theorem afterEvent_agenda (s : State) (rest : List Event) : (s.afterEvent rest).agenda = rest := rfl
@[simp] theorem afterEvent_rdata (s : State) (rest : List Event) : (s.afterEvent rest).rdata = s.rdata := rfl
@[simp] theorem afterEvent_draws (s : State) (rest : List Event) : (s.afterEvent rest).draws = s.draws := rfl
@[simp] theorem afterEvent_completions (s : State) (rest : List Event) : (s.afterEvent rest).completions = s.completions := rfl

/-! ## State.succeeded -/

@[simp] theorem succeeded_params (s : State) (r : Vector Word 4) : (s.succeeded r).params = s.params := rfl
@[simp] theorem succeeded_cfgNdisks (s : State) (r : Vector Word 4) : (s.succeeded r).cfgNdisks = s.cfgNdisks := rfl
@[simp] theorem succeeded_cfgNblocks (s : State) (r : Vector Word 4) : (s.succeeded r).cfgNblocks = s.cfgNblocks := rfl
@[simp] theorem succeeded_cfgBsize (s : State) (r : Vector Word 4) : (s.succeeded r).cfgBsize = s.cfgBsize := rfl
@[simp] theorem succeeded_irqEn (s : State) (r : Vector Word 4) : (s.succeeded r).irqEn = s.irqEn := rfl
@[simp] theorem succeeded_done (s : State) (r : Vector Word 4) : (s.succeeded r).done = true := rfl
@[simp] theorem succeeded_err (s : State) (r : Vector Word 4) : (s.succeeded r).err = false := rfl
@[simp] theorem succeeded_ovr (s : State) (r : Vector Word 4) : (s.succeeded r).ovr = s.ovr := rfl
@[simp] theorem succeeded_errcode (s : State) (r : Vector Word 4) : (s.succeeded r).errcode = none := rfl
@[simp] theorem succeeded_cmd (s : State) (r : Vector Word 4) : (s.succeeded r).cmd = s.cmd := rfl
@[simp] theorem succeeded_args (s : State) (r : Vector Word 4) : (s.succeeded r).args = s.args := rfl
@[simp] theorem succeeded_argl (s : State) (r : Vector Word 4) : (s.succeeded r).argl = s.argl := rfl
@[simp] theorem succeeded_res (s : State) (r : Vector Word 4) : (s.succeeded r).res = r := rfl
@[simp] theorem succeeded_errOpc (s : State) (r : Vector Word 4) : (s.succeeded r).errOpc = s.errOpc := rfl
@[simp] theorem succeeded_errDisk (s : State) (r : Vector Word 4) : (s.succeeded r).errDisk = s.errDisk := rfl
@[simp] theorem succeeded_errStripe (s : State) (r : Vector Word 4) : (s.succeeded r).errStripe = s.errStripe := rfl
@[simp] theorem succeeded_buf (s : State) (r : Vector Word 4) : (s.succeeded r).buf = s.buf := rfl
@[simp] theorem succeeded_seq (s : State) (r : Vector Word 4) : (s.succeeded r).seq = .idle := rfl
@[simp] theorem succeeded_disk (s : State) (r : Vector Word 4) : (s.succeeded r).disk = s.disk := rfl
@[simp] theorem succeeded_geometry (s : State) (r : Vector Word 4) : (s.succeeded r).geometry = s.geometry := rfl
@[simp] theorem succeeded_answers (s : State) (r : Vector Word 4) : (s.succeeded r).answers = s.answers := rfl
@[simp] theorem succeeded_agenda (s : State) (r : Vector Word 4) : (s.succeeded r).agenda = s.agenda := rfl
@[simp] theorem succeeded_rdata (s : State) (r : Vector Word 4) : (s.succeeded r).rdata = s.rdata := rfl
@[simp] theorem succeeded_draws (s : State) (r : Vector Word 4) : (s.succeeded r).draws = s.draws := rfl
@[simp] theorem succeeded_completions (s : State) (r : Vector Word 4) : (s.succeeded r).completions = s.completions ++ [⟨s.cmd, r, none⟩] := rfl

/-! ## State.failed -/

@[simp] theorem failed_params (s : State) (kind : ErrorKind) (d b : Word) : (s.failed kind d b).params = s.params := rfl
@[simp] theorem failed_cfgNdisks (s : State) (kind : ErrorKind) (d b : Word) : (s.failed kind d b).cfgNdisks = s.cfgNdisks := rfl
@[simp] theorem failed_cfgNblocks (s : State) (kind : ErrorKind) (d b : Word) : (s.failed kind d b).cfgNblocks = s.cfgNblocks := rfl
@[simp] theorem failed_cfgBsize (s : State) (kind : ErrorKind) (d b : Word) : (s.failed kind d b).cfgBsize = s.cfgBsize := rfl
@[simp] theorem failed_irqEn (s : State) (kind : ErrorKind) (d b : Word) : (s.failed kind d b).irqEn = s.irqEn := rfl
@[simp] theorem failed_done (s : State) (kind : ErrorKind) (d b : Word) : (s.failed kind d b).done = true := rfl
@[simp] theorem failed_err (s : State) (kind : ErrorKind) (d b : Word) : (s.failed kind d b).err = true := rfl
@[simp] theorem failed_ovr (s : State) (kind : ErrorKind) (d b : Word) : (s.failed kind d b).ovr = s.ovr := rfl
@[simp] theorem failed_errcode (s : State) (kind : ErrorKind) (d b : Word) : (s.failed kind d b).errcode = some kind := rfl
@[simp] theorem failed_cmd (s : State) (kind : ErrorKind) (d b : Word) : (s.failed kind d b).cmd = s.cmd := rfl
@[simp] theorem failed_args (s : State) (kind : ErrorKind) (d b : Word) : (s.failed kind d b).args = s.args := rfl
@[simp] theorem failed_argl (s : State) (kind : ErrorKind) (d b : Word) : (s.failed kind d b).argl = s.argl := rfl
@[simp] theorem failed_res (s : State) (kind : ErrorKind) (d b : Word) : (s.failed kind d b).res = s.res := rfl
@[simp] theorem failed_errOpc (s : State) (kind : ErrorKind) (d b : Word) : (s.failed kind d b).errOpc = s.cmd := rfl
@[simp] theorem failed_errDisk (s : State) (kind : ErrorKind) (d b : Word) : (s.failed kind d b).errDisk = d := rfl
@[simp] theorem failed_errStripe (s : State) (kind : ErrorKind) (d b : Word) : (s.failed kind d b).errStripe = b := rfl
@[simp] theorem failed_buf (s : State) (kind : ErrorKind) (d b : Word) : (s.failed kind d b).buf = s.buf := rfl
@[simp] theorem failed_seq (s : State) (kind : ErrorKind) (d b : Word) : (s.failed kind d b).seq = .idle := rfl
@[simp] theorem failed_disk (s : State) (kind : ErrorKind) (d b : Word) : (s.failed kind d b).disk = s.disk := rfl
@[simp] theorem failed_geometry (s : State) (kind : ErrorKind) (d b : Word) : (s.failed kind d b).geometry = s.geometry := rfl
@[simp] theorem failed_answers (s : State) (kind : ErrorKind) (d b : Word) : (s.failed kind d b).answers = s.answers := rfl
@[simp] theorem failed_agenda (s : State) (kind : ErrorKind) (d b : Word) : (s.failed kind d b).agenda = s.agenda := rfl
@[simp] theorem failed_rdata (s : State) (kind : ErrorKind) (d b : Word) : (s.failed kind d b).rdata = s.rdata := rfl
@[simp] theorem failed_draws (s : State) (kind : ErrorKind) (d b : Word) : (s.failed kind d b).draws = s.draws := rfl
@[simp] theorem failed_completions (s : State) (kind : ErrorKind) (d b : Word) : (s.failed kind d b).completions = s.completions ++ [⟨s.cmd, s.res, some (kind, d, b)⟩] := rfl

/-! ## State.stored -/

@[simp] theorem stored_params (s : State) (d blk off : Nat) (bytes : Block) : (s.stored d blk off bytes).params = s.params := rfl
@[simp] theorem stored_cfgNdisks (s : State) (d blk off : Nat) (bytes : Block) : (s.stored d blk off bytes).cfgNdisks = s.cfgNdisks := rfl
@[simp] theorem stored_cfgNblocks (s : State) (d blk off : Nat) (bytes : Block) : (s.stored d blk off bytes).cfgNblocks = s.cfgNblocks := rfl
@[simp] theorem stored_cfgBsize (s : State) (d blk off : Nat) (bytes : Block) : (s.stored d blk off bytes).cfgBsize = s.cfgBsize := rfl
@[simp] theorem stored_irqEn (s : State) (d blk off : Nat) (bytes : Block) : (s.stored d blk off bytes).irqEn = s.irqEn := rfl
@[simp] theorem stored_done (s : State) (d blk off : Nat) (bytes : Block) : (s.stored d blk off bytes).done = s.done := rfl
@[simp] theorem stored_err (s : State) (d blk off : Nat) (bytes : Block) : (s.stored d blk off bytes).err = s.err := rfl
@[simp] theorem stored_ovr (s : State) (d blk off : Nat) (bytes : Block) : (s.stored d blk off bytes).ovr = s.ovr := rfl
@[simp] theorem stored_errcode (s : State) (d blk off : Nat) (bytes : Block) : (s.stored d blk off bytes).errcode = s.errcode := rfl
@[simp] theorem stored_cmd (s : State) (d blk off : Nat) (bytes : Block) : (s.stored d blk off bytes).cmd = s.cmd := rfl
@[simp] theorem stored_args (s : State) (d blk off : Nat) (bytes : Block) : (s.stored d blk off bytes).args = s.args := rfl
@[simp] theorem stored_argl (s : State) (d blk off : Nat) (bytes : Block) : (s.stored d blk off bytes).argl = s.argl := rfl
@[simp] theorem stored_res (s : State) (d blk off : Nat) (bytes : Block) : (s.stored d blk off bytes).res = s.res := rfl
@[simp] theorem stored_errOpc (s : State) (d blk off : Nat) (bytes : Block) : (s.stored d blk off bytes).errOpc = s.errOpc := rfl
@[simp] theorem stored_errDisk (s : State) (d blk off : Nat) (bytes : Block) : (s.stored d blk off bytes).errDisk = s.errDisk := rfl
@[simp] theorem stored_errStripe (s : State) (d blk off : Nat) (bytes : Block) : (s.stored d blk off bytes).errStripe = s.errStripe := rfl
@[simp] theorem stored_buf (s : State) (d blk off : Nat) (bytes : Block) : (s.stored d blk off bytes).buf = s.buf := rfl
@[simp] theorem stored_seq (s : State) (d blk off : Nat) (bytes : Block) : (s.stored d blk off bytes).seq = s.seq := rfl
@[simp] theorem stored_disk (s : State) (d blk off : Nat) (bytes : Block) : (s.stored d blk off bytes).disk = s.diskWith d blk off bytes := rfl
@[simp] theorem stored_geometry (s : State) (d blk off : Nat) (bytes : Block) : (s.stored d blk off bytes).geometry = s.geometry := rfl
@[simp] theorem stored_answers (s : State) (d blk off : Nat) (bytes : Block) : (s.stored d blk off bytes).answers = s.answers := rfl
@[simp] theorem stored_agenda (s : State) (d blk off : Nat) (bytes : Block) : (s.stored d blk off bytes).agenda = s.agenda := rfl
@[simp] theorem stored_rdata (s : State) (d blk off : Nat) (bytes : Block) : (s.stored d blk off bytes).rdata = s.rdata := rfl
@[simp] theorem stored_draws (s : State) (d blk off : Nat) (bytes : Block) : (s.stored d blk off bytes).draws = s.draws := rfl
@[simp] theorem stored_completions (s : State) (d blk off : Nat) (bytes : Block) : (s.stored d blk off bytes).completions = s.completions := rfl

/-! ## The two shapes of a completed state -/

/-- An error completion is the state R76 describes. -/
theorem completeError_eq_failed (s : State) (kind : ErrorKind) (d b : Word) :
    s.completeError kind d b = s.failed kind d b := rfl

/-- A successful completion is the state R75 describes with the staged writes. -/
theorem complete_res_eq (s : State) (ws : List (Fin 4 × Word)) :
    s.complete { res := ws } = s.succeeded (applyRes s.res ws) := rfl

theorem complete_buf_eq (s : State) (b : Nat) (bytes : Block) :
    s.complete { buf := some (b, bytes) } = { s.succeeded s.res with buf := s.bufWith b 0 bytes } := rfl

end Sys2Proof.Machine
end

