-- ==== Sys2Proof/Laws/Memory.lean ====
section
/-! SUPPORT. The laws of memory: a read after a write, other addresses left alone, and the canonical form kept by every
memory operation. The read laws hold of every list of cells, canonical or not. -/

namespace Sys2Proof.Machine

variable (u : Option Byte)

@[simp] theorem Memory.read_nil (a : Nat) : Memory.read u [] a = u := rfl

theorem Memory.read_cons (k : Nat) (v : Byte) (m : List Host.Cell) (a : Nat) :
    Memory.read u ((k, v) :: m) a = if k = a then some v else Memory.read u m a := rfl

theorem Memory.read_erase_self (m : List Host.Cell) (a : Nat) : Memory.read u (Memory.erase m a) a = u := by
  induction m with
  | nil => rfl
  | cons c m ih =>
    obtain ⟨k, v⟩ := c
    by_cases h : k = a <;> simp [Memory.erase, Memory.read, h, ih]

theorem Memory.read_erase_other (m : List Host.Cell) {a b : Nat} (h : b ≠ a) :
    Memory.read u (Memory.erase m a) b = Memory.read u m b := by
  induction m with
  | nil => rfl
  | cons c m ih =>
    obtain ⟨k, v⟩ := c
    by_cases hk : k = a
    · subst hk
      simp [Memory.erase, Memory.read, ih, Ne.symm h]
    · simp [Memory.erase, Memory.read, if_neg hk, ih]

theorem Memory.read_insert_self (m : List Host.Cell) (a : Nat) (v : Byte) :
    Memory.read u (Memory.insert m a v) a = some v := by
  induction m with
  | nil => simp [Memory.insert, Memory.read]
  | cons c m ih =>
    obtain ⟨k, w⟩ := c
    by_cases h1 : a < k
    · simp [Memory.insert, Memory.read, h1]
    · by_cases h2 : k = a <;> simp [Memory.insert, Memory.read, h1, h2, ih]

theorem Memory.read_insert_other (m : List Host.Cell) {a b : Nat} (v : Byte) (h : b ≠ a) :
    Memory.read u (Memory.insert m a v) b = Memory.read u m b := by
  induction m with
  | nil => simp [Memory.insert, Memory.read, Ne.symm h]
  | cons c m ih =>
    obtain ⟨k, w⟩ := c
    by_cases h1 : a < k
    · simp [Memory.insert, Memory.read, h1, Ne.symm h]
    · by_cases h2 : k = a
      · subst h2
        simp [Memory.insert, Memory.read, Ne.symm h]
      · simp [Memory.insert, Memory.read, if_neg h1, if_neg h2, ih]

/-- A read of the address just written gives the byte written. -/
theorem Memory.read_write_self (m : List Host.Cell) (a : Nat) (v : Byte) :
    Memory.read u (Memory.write u m a v) a = some v := by
  unfold Memory.write
  split
  · next h => rw [Memory.read_erase_self, h]
  · exact Memory.read_insert_self u m a v

/-- A write leaves every other address alone. -/
theorem Memory.read_write_other (m : List Host.Cell) {a b : Nat} (v : Byte) (h : b ≠ a) :
    Memory.read u (Memory.write u m a v) b = Memory.read u m b := by
  unfold Memory.write
  split
  · exact Memory.read_erase_other u m h
  · exact Memory.read_insert_other u m v h

/-- A run of writes leaves every address outside the run alone. -/
theorem Memory.read_writeBytes_other (m : List Host.Cell) (bs : Block) (a b : Nat) (h : b < a ∨ a + bs.length ≤ b) :
    Memory.read u (Memory.writeBytes u m a bs) b = Memory.read u m b := by
  induction bs generalizing m a with
  | nil => rfl
  | cons v bs ih =>
    simp only [List.length_cons] at h
    rw [Memory.writeBytes, ih _ _ (by omega), Memory.read_write_other _ _ _ (by omega)]

/-- A run of writes sets every address of the run. -/
theorem Memory.read_writeBytes (m : List Host.Cell) (bs : Block) (a j : Nat) (h : j < bs.length) :
    Memory.read u (Memory.writeBytes u m a bs) (a + j) = some bs[j] := by
  induction bs generalizing m a j with
  | nil => simp at h
  | cons v bs ih =>
    rw [Memory.writeBytes]
    cases j with
    | zero => rw [Memory.read_writeBytes_other _ _ _ _ _ (by omega)]; simpa using Memory.read_write_self u m a v
    | succ j => simpa [Nat.add_assoc, Nat.add_comm 1] using ih (Memory.write u m a v) (a + 1) j (by simpa using h)

/-- A run of reads has a value exactly if each of its bytes has one. -/
theorem Memory.readBytes_eq_some (m : List Host.Cell) (a len : Nat) (bs : Block) :
    Memory.readBytes u m a len = some bs ↔
      bs.length = len ∧ ∀ j (h : j < bs.length), Memory.read u m (a + j) = some bs[j] := by
  induction len generalizing a bs with
  | zero =>
    cases bs <;> simp [Memory.readBytes]
  | succ len ih =>
    rw [Memory.readBytes]
    constructor
    · intro h
      split at h
      · next b rest hb hr =>
        cases h
        obtain ⟨hl, hj⟩ := (ih (a + 1) rest).1 hr
        refine ⟨by simp [hl], fun j hj' => ?_⟩
        cases j with
        | zero => simpa using hb
        | succ j => simpa [Nat.add_assoc, Nat.add_comm 1] using hj j (by simpa using hj')
      · cases h
    · rintro ⟨hl, hj⟩
      cases bs with
      | nil => simp at hl
      | cons b rest =>
        have hb := hj 0 (by simp)
        have hr := (ih (a + 1) rest).2 ⟨by simpa using hl, fun j hj' => by
          rw [Nat.add_assoc, Nat.add_comm 1 j]; exact hj (j + 1) (by simpa using hj')⟩
        simp only [Nat.add_zero, List.getElem_cons_zero] at hb
        simp [hb, hr]

/-! ## The canonical form -/

/-- `risingFrom` says that the first address is above `a` and the rest rise. -/
theorem Memory.risingFrom_insert (m : List Host.Cell) (a b : Nat) (v : Byte) (hab : a < b)
    (h : Memory.risingFrom a m = true) : Memory.risingFrom a (Memory.insert m b v) = true := by
  induction m generalizing a with
  | nil => simp [Memory.insert, Memory.risingFrom, hab]
  | cons c m ih =>
    obtain ⟨k, w⟩ := c
    simp only [Memory.risingFrom, Bool.and_eq_true, decide_eq_true_eq] at h
    rw [Memory.insert]
    split
    · next hbk => simp [Memory.risingFrom, hab, hbk, h.2]
    · split
      · next _ hkb => subst hkb; simp [Memory.risingFrom, hab, h.2]
      · next h1 h2 => simp [Memory.risingFrom, h.1, ih k (by omega) h.2]

theorem Memory.risingFrom_weaken (m : List Host.Cell) (a b : Nat) (hab : a ≤ b)
    (h : Memory.risingFrom b m = true) : Memory.risingFrom a m = true := by
  cases m with
  | nil => rfl
  | cons c m =>
    simp only [Memory.risingFrom, Bool.and_eq_true, decide_eq_true_eq] at h ⊢
    exact ⟨by omega, h.2⟩

theorem Memory.risingFrom_erase (m : List Host.Cell) (a b : Nat) (h : Memory.risingFrom a m = true) :
    Memory.risingFrom a (Memory.erase m b) = true := by
  induction m generalizing a with
  | nil => rfl
  | cons c m ih =>
    obtain ⟨k, w⟩ := c
    simp only [Memory.risingFrom, Bool.and_eq_true, decide_eq_true_eq] at h
    rw [Memory.erase]
    split
    · exact ih a (Memory.risingFrom_weaken m a k (by omega) h.2)
    · simp [Memory.risingFrom, h.1, ih k h.2]

theorem Memory.rising_iff (m : List Host.Cell) :
    Memory.rising m = true ↔ m = [] ∨ ∃ k v r, m = (k, v) :: r ∧ Memory.risingFrom k r = true := by
  cases m with
  | nil => simp [Memory.rising]
  | cons c m => obtain ⟨k, v⟩ := c; simp [Memory.rising]

theorem Memory.rising_insert (m : List Host.Cell) (a : Nat) (v : Byte) (h : Memory.rising m = true) :
    Memory.rising (Memory.insert m a v) = true := by
  cases m with
  | nil => rfl
  | cons c m =>
    obtain ⟨k, w⟩ := c
    simp only [Memory.rising] at h
    rw [Memory.insert]
    split
    · next hak => simp [Memory.rising, Memory.risingFrom, hak, h]
    · split
      · next _ hka => subst hka; exact h
      · next h1 h2 => exact Memory.risingFrom_insert m k a v (by omega) h

theorem Memory.rising_of_risingFrom (m : List Host.Cell) (a : Nat) (h : Memory.risingFrom a m = true) :
    Memory.rising m = true := by
  cases m with
  | nil => rfl
  | cons c m =>
    simp only [Memory.risingFrom, Bool.and_eq_true, decide_eq_true_eq] at h
    exact h.2

theorem Memory.rising_erase (m : List Host.Cell) (a : Nat) (h : Memory.rising m = true) :
    Memory.rising (Memory.erase m a) = true := by
  cases m with
  | nil => rfl
  | cons c m =>
    obtain ⟨k, w⟩ := c
    simp only [Memory.rising] at h
    rw [Memory.erase]
    split
    · exact Memory.rising_of_risingFrom _ k (Memory.risingFrom_erase m k a h)
    · exact Memory.risingFrom_erase m k a h

theorem Memory.mem_insert (m : List Host.Cell) (a : Nat) (v : Byte) (c : Host.Cell)
    (h : c ∈ Memory.insert m a v) : c = (a, v) ∨ c ∈ m := by
  induction m with
  | nil => simpa [Memory.insert] using h
  | cons d m ih =>
    obtain ⟨k, w⟩ := d
    rw [Memory.insert] at h
    split at h
    · simpa using h
    · split at h
      · next _ hka => rcases List.mem_cons.1 h with h | h
                      · exact .inl h
                      · exact .inr (List.mem_cons_of_mem _ h)
      · rcases List.mem_cons.1 h with h | h
        · exact .inr (h ▸ List.mem_cons_self)
        · exact (ih h).imp id (List.mem_cons_of_mem _)

theorem Memory.mem_erase (m : List Host.Cell) (a : Nat) (c : Host.Cell) (h : c ∈ Memory.erase m a) : c ∈ m := by
  induction m with
  | nil => simp [Memory.erase] at h
  | cons d m ih =>
    obtain ⟨k, w⟩ := d
    rw [Memory.erase] at h
    split at h
    · exact List.mem_cons_of_mem _ (ih h)
    · rcases List.mem_cons.1 h with h | h
      · exact h ▸ List.mem_cons_self
      · exact List.mem_cons_of_mem _ (ih h)

@[simp] theorem Memory.wf_nil : Memory.wf u [] = true := rfl

/-- A write keeps the canonical form. -/
theorem Memory.wf_write (m : List Host.Cell) (a : Nat) (v : Byte) (h : Memory.wf u m = true) :
    Memory.wf u (Memory.write u m a v) = true := by
  simp only [Memory.wf, Bool.and_eq_true, List.all_eq_true] at h ⊢
  unfold Memory.write
  split
  · exact ⟨Memory.rising_erase m a h.1, fun c hc => h.2 c (Memory.mem_erase m a c hc)⟩
  · next hv =>
    refine ⟨Memory.rising_insert m a v h.1, fun c hc => ?_⟩
    rcases Memory.mem_insert m a v c hc with rfl | hc
    · simpa using hv
    · exact h.2 c hc

/-- A run of writes keeps the canonical form. -/
theorem Memory.wf_writeBytes (m : List Host.Cell) (a : Nat) (bs : Block) (h : Memory.wf u m = true) :
    Memory.wf u (Memory.writeBytes u m a bs) = true := by
  induction bs generalizing m a with
  | nil => exact h
  | cons v bs ih => exact ih _ _ (Memory.wf_write u m a v h)

/-- The memories of reset are canonical. -/
theorem State.reset_canonical : State.reset.Canonical := by decide

end Sys2Proof.Machine
end

