-- ==== Sys2Proof/Laws/PerInstr.lean ====
section
/-! SUPPORT. Statements about every instruction as syntax, one lemma per constructor. RoundTrip: the word of the instruction is
well formed (R140, R147) and decodes to it (R143, R144). -/

namespace Sys2Proof.Laws.RoundTrip

/-- The instruction's word passes both checks and decodes to the instruction. -/
def Statement (i : Instr) : Prop := (encode i).wellFormed = true ∧ decode (encode i) = .ok i

theorem gfMul : Statement .gfMul := by constructor <;> rfl
theorem gfPow : Statement .gfPow := by constructor <;> rfl
theorem gfInv : Statement .gfInv := by constructor <;> rfl
theorem gfSolve2 : Statement .gfSolve2 := by constructor <;> rfl
theorem blkXor : Statement .blkXor := by constructor <;> rfl
theorem blkScale : Statement .blkScale := by constructor <;> rfl
theorem parComputeP : Statement .parComputeP := by constructor <;> rfl
theorem parComputeQ : Statement .parComputeQ := by constructor <;> rfl
theorem parUpdateP : Statement .parUpdateP := by constructor <;> rfl
theorem parUpdateQ : Statement .parUpdateQ := by constructor <;> rfl
theorem layPdiskP : Statement .layPdiskP := by constructor <;> rfl
theorem layPdiskQ : Statement .layPdiskQ := by constructor <;> rfl
theorem layIspar : Statement .layIspar := by constructor <;> rfl
theorem layResolve : Statement .layResolve := by constructor <;> rfl
theorem init : Statement .init := by constructor <;> rfl
theorem put : Statement .put := by constructor <;> rfl
theorem putraw : Statement .putraw := by constructor <;> rfl
theorem get : Statement .get := by constructor <;> rfl
theorem recSingleData : Statement .recSingleData := by constructor <;> rfl
theorem recSingleParity : Statement .recSingleParity := by constructor <;> rfl
theorem recDoubleData : Statement .recDoubleData := by constructor <;> rfl
theorem recDoubleParity : Statement .recDoubleParity := by constructor <;> rfl
theorem recDataAndParity : Statement .recDataAndParity := by constructor <;> rfl
theorem check : Statement .check := by constructor <;> rfl

end Sys2Proof.Laws.RoundTrip
end

