-- ==== Sys2Proof/Laws/Store.lean ====
section
/-! SUPPORT. What the BlockStore port can do: one request, seen from the disk's bytes and from the rest of the state. -/

namespace Sys2Proof.Machine

variable {s t u : State}

/-! ## Disk bytes -/

/-- Distinct triples have distinct keys (log 17). -/
theorem diskKey_inj {d blk off d' blk' off' : Nat} (hb : blk < 2 ^ 32) (ho : off < 2 ^ 32) (hb' : blk' < 2 ^ 32)
    (ho' : off' < 2 ^ 32) : diskKey d blk off = diskKey d' blk' off' ↔ d = d' ∧ blk = blk' ∧ off = off' := by
  simp only [diskKey]
  constructor
  · intro h
    refine ⟨?_, ?_, ?_⟩ <;> omega
  · rintro ⟨rfl, rfl, rfl⟩; rfl

/-- The keys of a run of offsets are consecutive. -/
theorem diskKey_add (d blk off j : Nat) : diskKey d blk (off + j) = diskKey d blk off + j := by
  simp only [diskKey]; omega

@[simp] theorem State.diskBytes_length (s : State) (d blk off len : Nat) : (s.diskBytes d blk off len).length = len := by
  simp [State.diskBytes]

theorem State.diskBytes_getElem (s : State) (d blk off len j : Nat) (h : j < (s.diskBytes d blk off len).length) :
    (s.diskBytes d blk off len)[j] = s.diskByte d blk (off + j) := by
  simp [State.diskBytes]

/-- A byte that a successful write stored reads back (R107). -/
theorem State.diskByte_stored (s : State) (d blk off : Nat) (bytes : Block) (j : Nat) (h : j < bytes.length) :
    (s.stored d blk off bytes).diskByte d blk (off + j) = bytes[j] := by
  simp only [State.diskByte, State.stored, State.diskWith, diskKey_add]
  rw [Memory.read_writeBytes _ _ _ _ _ h]
  rfl

/-- A byte outside the stored ones is unchanged (R107). -/
theorem State.diskByte_stored_other (s : State) (d blk off : Nat) (bytes : Block) (d' blk' off' : Nat)
    (hb : blk < 2 ^ 32) (ho : off + bytes.length ≤ 2 ^ 32) (hb' : blk' < 2 ^ 32) (ho' : off' < 2 ^ 32)
    (h : ¬(d' = d ∧ blk' = blk ∧ off ≤ off' ∧ off' < off + bytes.length)) :
    (s.stored d blk off bytes).diskByte d' blk' off' = s.diskByte d' blk' off' := by
  simp only [State.diskByte, State.stored, State.diskWith]
  rw [Memory.read_writeBytes_other]
  simp only [diskKey]
  omega

/-- Reading back the whole of what was stored. -/
theorem State.diskBytes_stored (s : State) (d blk off : Nat) (bytes : Block) :
    (s.stored d blk off bytes).diskBytes d blk off bytes.length = bytes := by
  apply List.ext_getElem (by simp)
  intro j h1 h2
  rw [State.diskBytes_getElem, State.diskByte_stored _ _ _ _ _ _ h2]

/-- A run of bytes on another disk or in another block is unchanged by a store. -/
theorem State.diskBytes_stored_other (s : State) (d blk off : Nat) (bytes : Block) (d' blk' off' len' : Nat)
    (hb : blk < 2 ^ 32) (ho : off + bytes.length ≤ 2 ^ 32) (hb' : blk' < 2 ^ 32) (ho' : off' + len' ≤ 2 ^ 32)
    (h : ¬(d' = d ∧ blk' = blk)) :
    (s.stored d blk off bytes).diskBytes d' blk' off' len' = s.diskBytes d' blk' off' len' := by
  apply List.ext_getElem (by simp)
  intro j h1 h2
  simp only [State.diskBytes_length] at h1
  rw [State.diskBytes_getElem, State.diskBytes_getElem, State.diskByte_stored_other] <;> omega

/-! ## States that differ only in the BlockStore, its inputs and the sequencer -/

/-- `t` differs from `s` at most in what a BlockStore request may change. -/
def State.SameCore (s t : State) : Prop :=
  t = { s with disk := t.disk, answers := t.answers, draws := t.draws, seq := t.seq }

theorem State.SameCore.refl (s : State) : s.SameCore s := rfl

theorem State.SameCore.trans (h : s.SameCore t) (h' : t.SameCore u) : s.SameCore u := by
  unfold State.SameCore at h h' ⊢
  rw [h'] ; rw [h]

theorem State.SameCore.params (h : s.SameCore t) : t.params = s.params := by rw [h]
theorem State.SameCore.cfgNdisks (h : s.SameCore t) : t.cfgNdisks = s.cfgNdisks := by rw [h]
theorem State.SameCore.cfgNblocks (h : s.SameCore t) : t.cfgNblocks = s.cfgNblocks := by rw [h]
theorem State.SameCore.cfgBsize (h : s.SameCore t) : t.cfgBsize = s.cfgBsize := by rw [h]
theorem State.SameCore.irqEn (h : s.SameCore t) : t.irqEn = s.irqEn := by rw [h]
theorem State.SameCore.done (h : s.SameCore t) : t.done = s.done := by rw [h]
theorem State.SameCore.err (h : s.SameCore t) : t.err = s.err := by rw [h]
theorem State.SameCore.ovr (h : s.SameCore t) : t.ovr = s.ovr := by rw [h]
theorem State.SameCore.errcode (h : s.SameCore t) : t.errcode = s.errcode := by rw [h]
theorem State.SameCore.cmd (h : s.SameCore t) : t.cmd = s.cmd := by rw [h]
theorem State.SameCore.args (h : s.SameCore t) : t.args = s.args := by rw [h]
theorem State.SameCore.argl (h : s.SameCore t) : t.argl = s.argl := by rw [h]
theorem State.SameCore.res (h : s.SameCore t) : t.res = s.res := by rw [h]
theorem State.SameCore.errOpc (h : s.SameCore t) : t.errOpc = s.errOpc := by rw [h]
theorem State.SameCore.errDisk (h : s.SameCore t) : t.errDisk = s.errDisk := by rw [h]
theorem State.SameCore.errStripe (h : s.SameCore t) : t.errStripe = s.errStripe := by rw [h]
theorem State.SameCore.buf (h : s.SameCore t) : t.buf = s.buf := by rw [h]
theorem State.SameCore.geometry (h : s.SameCore t) : t.geometry = s.geometry := by rw [h]
theorem State.SameCore.agenda (h : s.SameCore t) : t.agenda = s.agenda := by rw [h]
theorem State.SameCore.rdata (h : s.SameCore t) : t.rdata = s.rdata := by rw [h]
theorem State.SameCore.completions (h : s.SameCore t) : t.completions = s.completions := by rw [h]

/-- A write of this request covers the key. -/
def Request.Covers (r : Request) (key : Nat) : Prop :=
  r.isWrite = true ∧ diskKey r.disk r.block r.off ≤ key ∧ key < diskKey r.disk r.block r.off + r.len

theorem State.takeAnswer_same (s : State) : s.SameCore s.takeAnswer.2 := by
  unfold State.takeAnswer
  split <;> rfl

theorem State.takeAnswer_disk (s : State) : s.takeAnswer.2.disk = s.disk := by
  unfold State.takeAnswer
  split <;> rfl

theorem State.spoil_same (s : State) (r : Request) : s.SameCore (s.spoil r) := by cases r <;> rfl

theorem State.serve_same (s : State) (r : Request) : s.SameCore (s.serve r).1 := by cases r <;> rfl

/-- The three ways a request ends: served, spoiled with a failure, or never answered. -/
theorem State.respond_cases (s : State) (r : Request) (a : Answer) :
    s.respond r a = ((s.serve r).1, some (.ok (s.serve r).2)) ∨
      (∃ kind, s.verdict r a = .fail kind ∧ s.respond r a = (s.spoil r, some (.fail kind))) ∨
      s.respond r a = (s, none) := by
  unfold State.respond
  split
  · exact .inl rfl
  · next kind h => exact .inr (.inl ⟨kind, h, rfl⟩)
  · exact .inr (.inr rfl)

theorem State.respond_same (s : State) (r : Request) (a : Answer) : s.SameCore (s.respond r a).1 := by
  rcases s.respond_cases r a with h | ⟨_, -, h⟩ | h <;> rw [h]
  · exact s.serve_same r
  · exact s.spoil_same r
  · rfl

theorem State.seq_same (s : State) (q : Sequencer) : s.SameCore { s with seq := q } := rfl

/-- One request changes at most the disk, the answers to come, the draws and the sequencer. -/
theorem State.receive_same (s : State) (r : Request) : s.SameCore (s.receive r).1 :=
  (s.takeAnswer_same.trans (s.takeAnswer.2.respond_same r _)).trans (State.seq_same _ _)

@[simp] theorem freeBytes_length (draw len : Nat) : (freeBytes draw len).length = len := by simp [freeBytes]

theorem State.spoil_disk (s : State) (r : Request) {key : Nat} (h : ¬r.Covers key) :
    Memory.read diskUnlisted (s.spoil r).disk key = Memory.read diskUnlisted s.disk key := by
  cases r with
  | read => rfl
  | write d blk off bytes =>
    simp only [Request.Covers, Request.isWrite, Request.disk, Request.block, Request.off, Request.len, true_and] at h
    exact Memory.read_writeBytes_other _ _ _ _ _ (by simp only [freeBytes_length]; omega)

theorem State.serve_disk (s : State) (r : Request) {key : Nat} (h : ¬r.Covers key) :
    Memory.read diskUnlisted (s.serve r).1.disk key = Memory.read diskUnlisted s.disk key := by
  cases r with
  | read => rfl
  | write d blk off bytes =>
    simp only [Request.Covers, Request.isWrite, Request.disk, Request.block, Request.off, Request.len, true_and] at h
    exact Memory.read_writeBytes_other _ _ _ _ _ (by omega)

/-- One request leaves every byte of the disk alone but those a WRITE covers (R106, R107). -/
theorem State.receive_disk (s : State) (r : Request) {key : Nat} (h : ¬r.Covers key) :
    Memory.read diskUnlisted (s.receive r).1.disk key = Memory.read diskUnlisted s.disk key := by
  have hr : ∀ (v : State) (a : Answer),
      Memory.read diskUnlisted (v.respond r a).1.disk key = Memory.read diskUnlisted v.disk key := by
    intro v a
    rcases v.respond_cases r a with e | ⟨_, -, e⟩ | e <;> rw [e]
    · exact v.serve_disk r h
    · exact v.spoil_disk r h
  have := hr s.takeAnswer.2 s.takeAnswer.1
  rwa [State.takeAnswer_disk] at this

theorem State.spoil_wf (s : State) (r : Request) (h : Memory.wf diskUnlisted s.disk = true) :
    Memory.wf diskUnlisted (s.spoil r).disk = true := by
  cases r with
  | read => exact h
  | write => exact Memory.wf_writeBytes _ _ _ _ h

theorem State.serve_wf (s : State) (r : Request) (h : Memory.wf diskUnlisted s.disk = true) :
    Memory.wf diskUnlisted (s.serve r).1.disk = true := by
  cases r with
  | read => exact h
  | write => exact Memory.wf_writeBytes _ _ _ _ h

/-- One request keeps the disk's canonical form. -/
theorem State.receive_wf (s : State) (r : Request) (h : Memory.wf diskUnlisted s.disk = true) :
    Memory.wf diskUnlisted (s.receive r).1.disk = true := by
  have hr : ∀ (v : State) (a : Answer), Memory.wf diskUnlisted v.disk = true →
      Memory.wf diskUnlisted (v.respond r a).1.disk = true := by
    intro v a hv
    rcases v.respond_cases r a with e | ⟨_, -, e⟩ | e <;> rw [e]
    · exact v.serve_wf r hv
    · exact v.spoil_wf r hv
    · exact hv
  exact hr s.takeAnswer.2 s.takeAnswer.1 (by rwa [State.takeAnswer_disk])

/-- What the sequencer is after one request (R77, R110). -/
theorem State.receive_seq (s : State) (r : Request) :
    (s.receive r).1.seq = advance s.history r (s.receive r).2 := rfl

/-- A request the BlockStore answers with OK, inside its geometry: it is served, its answer is used up, and its response joins
the scratch (R106, R107). -/
theorem State.receive_ok (s : State) (r : Request) (rest : List Answer) (ha : s.answers = .ok :: rest)
    (hg : s.inGeometry r = true) :
    s.receive r =
      ({ (s.serve r).1 with answers := rest, seq := .exec (s.history ++ [.ok (s.serve r).2]) .quiet },
        some (.ok (s.serve r).2)) := by
  have hv : ({ s with answers := rest } : State).verdict r .ok = .ok := if_pos hg
  simp only [State.receive, State.takeAnswer, ha, State.respond, hv, advance]
  cases r <;> rfl

/-- A request the BlockStore fails: its answer is used up, the target bytes of a WRITE become free, and the failure joins the
scratch (R106, R107). -/
theorem State.receive_fail (s : State) (r : Request) (a : Answer) (rest : List Answer) (kind : StoreFailure)
    (ha : s.answers = a :: rest) (hv : s.verdict r a = .fail kind) :
    s.receive r =
      ({ s.spoil r with answers := rest, seq := .exec (s.history ++ [.fail kind]) .quiet }, some (.fail kind)) := by
  have hv' : ({ s with answers := rest } : State).verdict r a = .fail kind := by rw [← hv]; cases a <;> rfl
  simp only [State.receive, State.takeAnswer, ha, State.respond, hv', advance]
  cases r <;> rfl

/-- A request the BlockStore never answers: its answer is used up and the command is stalled (R77). -/
theorem State.receive_silent (s : State) (r : Request) (rest : List Answer) (ha : s.answers = .silent :: rest) :
    s.receive r = ({ s with answers := rest, seq := .exec s.history (.stalled r) }, none) := by
  simp only [State.receive, State.takeAnswer, ha, State.respond, State.verdict, advance]

/-- A BlockStore with a geometry does not answer FAIL(BOUNDS) to a request inside it (R108, R461(a)). -/
theorem State.verdict_ne_bounds (s : State) (r : Request) (a : Answer) (hs : s.geometry.isSome = true)
    (hg : s.inGeometry r = true) : s.verdict r a ≠ .fail .bounds := by
  rcases a with _ | (_ | _ | _) | _ <;> simp [State.verdict, hs, hg]

end Sys2Proof.Machine
end

