-- ==== Sys2Proof/Laws/Run.lean ====
section
/-! SUPPORT. What a run of a command's program can do, said once: `run_spec` and `runCommand_spec` list every way a command can
end, for any program whose leaves and requests meet given predicates; and the rules that run a program whose requests are all
answered with OK. -/

namespace Sys2Proof.Machine

variable {s t u : State} {E E' : Effects → Prop} {R R' : ErrorKind → Word → Word → Prop} {W W' : Request → Prop}

/-- Every way the program can finish meets `E`, every error it raises itself meets `R`, every request it makes meets `W`. -/
def Prog.All (E : Effects → Prop) (R : ErrorKind → Word → Word → Prop) (W : Request → Prop) : Prog → Prop
  | .done e => E e
  | .raise k d b => R k d b
  | .stop _ => True
  | .ask r k => W r ∧ ∀ b, (k b).All E R W

/-- An error that a BlockStore failure on a request meeting `W` raises (R106, R107, R109). -/
def StoreRaise (W : Request → Prop) (kind : ErrorKind) (d b : Word) : Prop :=
  ∃ r f, W r ∧ kind = storeError f ∧ d = BitVec.ofNat 32 r.disk ∧ b = BitVec.ofNat 32 r.block

theorem Prog.All.mono {p : Prog} (h : p.All E R W) (hE : ∀ e, E e → E' e) (hR : ∀ k d b, R k d b → R' k d b)
    (hW : ∀ r, W r → W' r) : p.All E' R' W' := by
  induction p with
  | done e => exact hE e h
  | raise k d b => exact hR k d b h
  | stop f => trivial
  | ask r k ih => exact ⟨hW r h.1, fun b => ih b (h.2 b)⟩

/-- What is left of a program after some responses makes the same requests and finishes in the same ways. -/
theorem Prog.All.resume {p : Prog} (h : p.All E R W) (hist : List Response) :
    (p.resume hist).All E (fun k d b => R k d b ∨ StoreRaise W k d b) W := by
  induction hist generalizing p with
  | nil => exact (by cases p <;> exact h.mono (fun _ => id) (fun _ _ _ => .inl) (fun _ => id))
  | cons x hist ih =>
    cases p with
    | done e => exact h
    | raise k d b => exact .inl h
    | stop f => trivial
    | ask r k =>
      cases x with
      | ok bytes => exact ih (h.2 bytes)
      | fail f => exact .inr ⟨r, f, h.1, rfl, rfl, rfl⟩

@[simp] theorem Prog.resume_nil (p : Prog) : p.resume [] = p := by cases p <;> rfl

theorem Prog.resume_append (p : Prog) (h h' : List Response) : p.resume (h ++ h') = (p.resume h).resume h' := by
  induction h generalizing p with
  | nil => simp
  | cons x h ih =>
    cases p with
    | done e => rfl
    | raise k d b => rfl
    | stop f => rfl
    | ask r k =>
      cases x with
      | ok bytes => exact ih (k bytes)
      | fail f => rfl

/-- Every way a run ends (R75, R76, R77): with a successful completion, with an error the program raises, with an error of a
BlockStore failure, or with a request that is never answered. Up to that end nothing but the disk, the answers, the draws and
the sequencer has changed, and no byte of the disk outside the program's WRITEs. -/
theorem Prog.run_spec {p : Prog} (hp : p.All E R W) (h : p.run s = .next t) :
    ∃ u, s.SameCore u ∧
      (∀ key, (∀ r, W r → ¬r.Covers key) → Memory.read diskUnlisted u.disk key = Memory.read diskUnlisted s.disk key) ∧
      (Memory.wf diskUnlisted s.disk = true → Memory.wf diskUnlisted u.disk = true) ∧
      ((∃ e, E e ∧ t = u.complete e) ∨
        (∃ k d b, (R k d b ∨ StoreRaise W k d b) ∧ t = u.completeError k d b) ∨
        (t = u ∧ ∃ hist r, W r ∧ u.seq = .exec hist (.stalled r))) := by
  induction p generalizing s with
  | done e =>
    refine ⟨s, .refl s, fun _ _ => rfl, id, .inl ⟨e, hp, ?_⟩⟩
    simpa [Prog.run] using h.symm
  | raise k d b =>
    refine ⟨s, .refl s, fun _ _ => rfl, id, .inr (.inl ⟨k, d, b, .inl hp, ?_⟩)⟩
    simpa [Prog.run] using h.symm
  | stop f => simp [Prog.run] at h
  | ask r k ih =>
    have same := s.receive_same r
    have disk := fun key (hk : ∀ r, W r → ¬r.Covers key) => s.receive_disk r (hk r hp.1)
    have wf := s.receive_wf r
    have seq := s.receive_seq r
    rw [Prog.run] at h
    split at h
    · next v bytes hv =>
      rw [hv] at same disk wf
      obtain ⟨u, hu, hd, hw, hend⟩ := ih bytes (hp.2 bytes) h
      exact ⟨u, same.trans hu, fun key hk => (hd key hk).trans (disk key hk), fun hs => hw (wf hs), hend⟩
    · next v f hv =>
      rw [hv] at same disk wf
      refine ⟨v, same, disk, wf, .inr (.inl ⟨_, _, _, .inr ⟨r, f, hp.1, rfl, rfl, rfl⟩, ?_⟩)⟩
      simpa using h.symm
    · next v hv =>
      rw [hv] at same disk wf seq
      refine ⟨v, same, disk, wf, .inr (.inr ⟨?_, s.history, r, hp.1, seq⟩)⟩
      simpa using h.symm

/-- Every way a command ends, from wherever it stands. -/
theorem runCommand_spec {p : Prog} (hp : p.All E R W) (h : runCommand p s = .next t) :
    ∃ u, s.SameCore u ∧
      (∀ key, (∀ r, W r → ¬r.Covers key) → Memory.read diskUnlisted u.disk key = Memory.read diskUnlisted s.disk key) ∧
      (Memory.wf diskUnlisted s.disk = true → Memory.wf diskUnlisted u.disk = true) ∧
      ((∃ e, E e ∧ t = u.complete e) ∨
        (∃ k d b, (R k d b ∨ StoreRaise W k d b) ∧ t = u.completeError k d b) ∨
        (t = u ∧ ∃ hist r, u.seq = .exec hist (.stalled r))) := by
  unfold runCommand at h
  split at h
  · next hs =>
    cases h
    refine ⟨s, .refl s, fun _ _ => rfl, id, .inr (.inr ⟨rfl, ?_⟩)⟩
    unfold State.isStalled at hs
    split at hs
    · next hist r hq => exact ⟨hist, r, hq⟩
    · cases hs
  · obtain ⟨u, hu, hd, hw, hend⟩ := Prog.run_spec (hp.resume s.history) h
    refine ⟨u, hu, hd, hw, ?_⟩
    rcases hend with h1 | ⟨k, d, b, hr, ht⟩ | ⟨ht, hist, r, _, hq⟩
    · exact .inl h1
    · exact .inr (.inl ⟨k, d, b, by rcases hr with (hr | hr) | hr <;> simp [hr], ht⟩)
    · exact .inr (.inr ⟨ht, hist, r, hq⟩)

/-! ## Runs from the start of a command -/

theorem State.Started.history (h : s.Started) : s.history = [] := by rw [State.history, h]

theorem State.Started.not_stalled (h : s.Started) : s.isStalled = false := by rw [State.isStalled, h]

/-- A command that has just been accepted runs from its start. -/
theorem runCommand_started (p : Prog) (h : s.Started) : runCommand p s = p.run s := by
  simp [runCommand, h.not_stalled, h.history]

@[simp] theorem Prog.run_done (e : Effects) (s : State) : (Prog.done e).run s = .next (s.complete e) := rfl

@[simp] theorem Prog.run_raise (k : ErrorKind) (d b : Word) (s : State) :
    (Prog.raise k d b).run s = .next (s.failed k d b) := rfl

@[simp] theorem Prog.run_stop (f : Fault) (s : State) : (Prog.stop f).run s = .fault f := rfl

/-- The state after a request answered with OK: the disk served, one answer used up, the response in the scratch. -/
def State.answered (s : State) (r : Request) (rest : List Answer) : State :=
  { (s.serve r).1 with answers := rest, seq := .exec (s.history ++ [.ok (s.serve r).2]) .quiet }

/-- A READ answered with OK gives the program the bytes of the disk (R106). -/
theorem run_bsRead {d blk off len : Nat} {k : Block → Prog} {rest : List Answer} (ha : s.answers = .ok :: rest)
    (hg : s.inGeometry (.read d blk off len) = true) :
    (bsRead d blk off len k).run s =
      (k (s.diskBytes d blk off len)).run (s.answered (.read d blk off len) rest) := by
  simp only [bsRead, Prog.run, s.receive_ok _ _ ha hg, State.answered]
  rfl

/-- A WRITE answered with OK changes the disk and goes on (R107). -/
theorem run_bsWrite {d blk off : Nat} {bytes : Block} {k : Prog} {rest : List Answer} (ha : s.answers = .ok :: rest)
    (hg : s.inGeometry (.write d blk off bytes) = true) :
    (bsWrite d blk off bytes k).run s = k.run (s.answered (.write d blk off bytes) rest) := by
  simp only [bsWrite, Prog.run, s.receive_ok _ _ ha hg, State.answered]

/-- A request the BlockStore fails ends the run with the mapped error, and opens the target bytes of a WRITE (R107, R109). -/
theorem run_ask_fail {r : Request} {k : Block → Prog} {a : Answer} {rest : List Answer} {kind : StoreFailure}
    (ha : s.answers = a :: rest) (hv : s.verdict r a = .fail kind) :
    (Prog.ask r k).run s =
      .next { (s.spoil r).failed (storeError kind) (BitVec.ofNat 32 r.disk) (BitVec.ofNat 32 r.block) with
        answers := rest } := by
  simp only [Prog.run, s.receive_fail r a rest kind ha hv]
  rfl

/-- A request the BlockStore never answers ends the run with the command stalled on it (R77). -/
theorem run_ask_silent {r : Request} {k : Block → Prog} {rest : List Answer} (ha : s.answers = .silent :: rest) :
    (Prog.ask r k).run s = .next { s with answers := rest, seq := .exec s.history (.stalled r) } := by
  simp only [Prog.run, s.receive_silent r rest ha]

/-- A provisioned store covers CFG (R461(a)). -/
theorem State.Provisioned.covers (h : s.Provisioned) (hb : s.busy = true) : s.StoreCovers := by
  intro g hg
  rw [h hb] at hg
  cases hg
  exact ⟨Nat.le_refl _, Nat.le_refl _, Nat.le_refl _⟩

/-- Requests inside CFG are inside a geometry that covers CFG (R108). -/
theorem State.StoreCovers.inGeometry (h : s.StoreCovers) {r : Request} (hd : r.disk < s.n) (hb : r.block < s.nb)
    (ho : r.off + r.len ≤ s.bs) : s.inGeometry r = true := by
  unfold State.inGeometry
  split
  · rfl
  · next g hg =>
    obtain ⟨h1, h2, h3⟩ := h g (by simp [hg])
    simp; omega

end Sys2Proof.Machine
end

