-- ==== Sys2Proof/Laws/Programs.lean ====
section
/-! SUPPORT. The pieces the programs are made of: what each makes of `Prog.All`, and how each runs when the BlockStore answers
OK. -/

namespace Sys2Proof.Machine

variable {s t : State} {E : Effects → Prop} {R : ErrorKind → Word → Word → Prop} {W : Request → Prop}

/-! ## The pieces under `Prog.All` -/

theorem all_withBuffer {b len : Nat} {k : Block → Prog}
    (h : ∀ bytes, s.bufBytes b 0 len = some bytes → (k bytes).All E R W) : (withBuffer s b len k).All E R W := by
  unfold withBuffer
  split
  · next bytes hb => exact h bytes hb
  · trivial

theorem all_withBuffers {len : Nat} (count first : Nat) {k : List Block → Prog}
    (h : ∀ ds, ds.length = count → (k ds).All E R W) : (withBuffers s len first count k).All E R W := by
  induction count generalizing first k with
  | zero => exact h [] rfl
  | succ count ih =>
    exact all_withBuffer fun d _ => ih (first + 1) fun ds hds => h (d :: ds) (by simp [hds])

theorem all_blockChecks {ok : Bool} {k : Prog} (h : ok = true → k.All E R W)
    (hr : ok = false → R .bounds noContext noContext) : (blockChecks ok k).All E R W := by
  unfold blockChecks
  split
  · next ho => exact h ho
  · next ho => exact hr (by simpa using ho)

theorem all_bsRead {d blk off len : Nat} {k : Block → Prog} (hw : W (.read d blk off len))
    (h : ∀ b, (k b).All E R W) : (bsRead d blk off len k).All E R W := ⟨hw, h⟩

theorem all_bsWrite {d blk off : Nat} {bytes : Block} {k : Prog} (hw : W (.write d blk off bytes))
    (h : k.All E R W) : (bsWrite d blk off bytes k).All E R W := ⟨hw, fun _ => h⟩

theorem all_whenConfigured {k : Prog} (h : 3 ≤ s.n → k.All E R W) (hr : s.n < 3 → R .layout noContext noContext) :
    (whenConfigured s k).All E R W := by
  unfold whenConfigured
  split
  · next hn => exact hr hn
  · next hn => exact h (by omega)

theorem all_whenDisk {d : Nat} {k : Prog} (h : d < s.n → k.All E R W)
    (hr : s.n ≤ d → R .layout (wordOf d) noContext) : (whenDisk s d k).All E R W := by
  unfold whenDisk
  split
  · next hn => exact hr hn
  · next hn => exact h (by omega)

theorem all_whenStripe {w : Word} {stripe : Nat} {k : Prog} (h : stripe < s.nb → k.All E R W)
    (hr : s.nb ≤ stripe → R .layout w (wordOf stripe)) : (whenStripe s w stripe k).All E R W := by
  unfold whenStripe
  split
  · next hn => exact hr hn
  · next hn => exact h (by omega)

theorem all_whenRole {ok : Bool} {d stripe : Nat} {k : Prog} (h : ok = true → k.All E R W)
    (hr : ok = false → R .recoveryPrecondition (wordOf d) (wordOf stripe)) : (whenRole ok d stripe k).All E R W := by
  unfold whenRole
  split
  · next ho => exact h ho
  · next ho => exact hr (by simpa using ho)

/-- `read_data` makes READs of whole blocks only, and goes on with one block per disk of the list. -/
theorem all_readData {bs stripe : Nat} {skip : List Nat} (disks : List Nat) {k : List Block → Prog}
    (hw : ∀ d ∈ disks, W (.read d stripe 0 bs)) (h : ∀ ds, ds.length = disks.length → (k ds).All E R W) :
    (readData bs stripe skip disks k).All E R W := by
  induction disks generalizing k with
  | nil => exact h [] rfl
  | cons d disks ih =>
    rw [readData]
    split
    · exact ih (fun d' hd => hw d' (List.mem_cons_of_mem _ hd)) fun ds hds => h _ (by simp [hds])
    · exact all_bsRead (hw d List.mem_cons_self) fun b =>
        ih (fun d' hd => hw d' (List.mem_cons_of_mem _ hd)) fun ds hds => h _ (by simp [hds])

/-! ## The pieces with OK answers -/

theorem State.answered_read (s : State) (d blk off len : Nat) (rest : List Answer) :
    s.answered (.read d blk off len) rest =
      { s with answers := rest, seq := .exec (s.history ++ [.ok (s.diskBytes d blk off len)]) .quiet } := rfl

theorem State.answered_write (s : State) (d blk off : Nat) (bytes : Block) (rest : List Answer) :
    s.answered (.write d blk off bytes) rest =
      { s.stored d blk off bytes with answers := rest, seq := .exec (s.history ++ [.ok []]) .quiet } := rfl

/-- "every response OK" for one request more. -/
theorem State.AnswersOk.head {k : Nat} (h : s.AnswersOk (k + 1)) : s.answers = .ok :: s.answers.drop 1 := by
  unfold State.AnswersOk at h
  cases ha : s.answers with
  | nil => simp [ha, List.replicate_succ] at h
  | cons a as =>
    rw [ha, List.take_succ_cons, List.replicate_succ] at h
    simp [(List.cons.inj h).1]

theorem State.AnswersOk.tail {k : Nat} (h : s.AnswersOk (k + 1)) :
    (s.answers.drop 1).take k = List.replicate k Answer.ok := by
  unfold State.AnswersOk at h
  cases ha : s.answers with
  | nil => simp [ha, List.replicate_succ] at h
  | cons a as =>
    rw [ha, List.take_succ_cons, List.replicate_succ] at h
    simpa using (List.cons.inj h).2

/-- How many blocks `read_data` reads: one for each disk that is not skipped (R311). -/
def readCount (skip disks : List Nat) : Nat := (disks.filter (fun d => !skip.contains d)).length

/-- `read_data` with OK answers goes on with the blocks of the disk, zeros in the slots of skipped disks (R311), and uses one
answer per block it reads. -/
theorem run_readData {stripe : Nat} {skip : List Nat} (disks : List Nat) {k : List Block → Prog}
    (hc : s.StoreCovers) (hd : ∀ d ∈ disks, d < s.n) (hb : stripe < s.nb)
    (ha : s.AnswersOk (readCount skip disks)) :
    ∃ q, (readData s.bs stripe skip disks k).run s =
      (k (disks.map fun d => if skip.contains d then zeroBlock s.bs else s.diskBytes d stripe 0 s.bs)).run
        { s with answers := s.answers.drop (readCount skip disks), seq := q } := by
  induction disks generalizing s k with
  | nil => exact ⟨s.seq, rfl⟩
  | cons d disks ih =>
    by_cases hs : skip.contains d = true
    · have hcount : readCount skip (d :: disks) = readCount skip disks := by
        have hm : d ∈ skip := by simpa using hs
        simp [readCount, hm]
      rw [hcount] at ha ⊢
      obtain ⟨q, hq⟩ := ih (k := fun rest => k (zeroBlock s.bs :: rest)) hc
        (fun d' h => hd d' (List.mem_cons_of_mem _ h)) hb ha
      refine ⟨q, ?_⟩
      rw [readData, if_pos hs, hq, List.map_cons, if_pos hs]
    · have hcount : readCount skip (d :: disks) = readCount skip disks + 1 := by
        have hm : d ∉ skip := by simpa using hs
        simp [readCount, hm]
      rw [hcount] at ha ⊢
      have hg : s.inGeometry (.read d stripe 0 s.bs) = true :=
        hc.inGeometry (hd d List.mem_cons_self) hb (by simp [Request.off, Request.len])
      obtain ⟨q, hq⟩ := ih (s := s.answered (.read d stripe 0 s.bs) (s.answers.drop 1))
        (k := fun rest => k (s.diskBytes d stripe 0 s.bs :: rest)) hc
        (fun d' h => hd d' (List.mem_cons_of_mem _ h)) hb ha.tail
      refine ⟨q, ?_⟩
      rw [readData, if_neg hs, run_bsRead ha.head hg]
      refine hq.trans ?_
      rw [List.map_cons, if_neg hs]
      simp only [State.answered_read, List.drop_drop, Nat.add_comm 1]
      rfl

end Sys2Proof.Machine
end

