-- ==== Sys2Proof/Laws/Step.lean ====
section
/-! SUPPORT. What one step can do, said once: `exec` is the run of the command's program, the program reads only the core's
own registers and buffers, and the cases of a step, of a phase, and of a host access. -/

namespace Sys2Proof.Machine

variable {s t : State}

/-- Every meaning is the run of its command's program. -/
theorem exec_eq_runCommand (i : Instr) (s : State) : exec i s = runCommand (program i s) s := by cases i <;> rfl

/-- A command that has just been accepted runs its program from the start. -/
theorem exec_started (i : Instr) (h : s.Started) : exec i s = (program i s).run s := by
  rw [exec_eq_runCommand, runCommand_started _ h]

/-- A stalled command stays where it is (R77). -/
theorem exec_stalled (i : Instr) (h : s.isStalled = true) : exec i s = .next s := by
  rw [exec_eq_runCommand, runCommand, if_pos h]

/-- `withBuffer` reads params and BUF only. -/
theorem withBuffer_congr (hp : t.params = s.params) (hb : t.buf = s.buf) (b len : Nat) (k : Block → Prog) :
    withBuffer t b len k = withBuffer s b len k := by
  simp only [withBuffer, State.bufBytes, hp, hb]

/-- `withBuffers` reads params and BUF only. -/
theorem withBuffers_congr (hp : t.params = s.params) (hb : t.buf = s.buf) (len count : Nat) :
    ∀ (first : Nat) (k : List Block → Prog), withBuffers t len first count k = withBuffers s len first count k := by
  induction count with
  | zero => intro first k; rfl
  | succ count ih => intro first k; simp only [withBuffers, withBuffer_congr hp hb, ih]

/-- A command's program is a function of the operands, CFG, the build and BUF (R14, R56): no host register write, no answer
and no byte of the BlockStore reaches it but through a response. -/
theorem program_congr (i : Instr) (hp : t.params = s.params) (hb : t.buf = s.buf) (ha : t.argl = s.argl)
    (hn : t.cfgNdisks = s.cfgNdisks) (hnb : t.cfgNblocks = s.cfgNblocks) (hbs : t.cfgBsize = s.cfgBsize) :
    program i t = program i s := by
  have hw := fun len first count => withBuffers_congr hp hb len count first
  cases s; cases t
  dsimp only at hp hb ha hn hnb hbs
  subst hp hb ha hn hnb hbs
  cases i <;> first | rfl | (simp only [program, parComputePProgram, parComputeQProgram, hw]; rfl)

theorem State.SameCore.program (h : s.SameCore t) (i : Instr) : program i t = program i s :=
  program_congr i h.params h.buf h.argl h.cfgNdisks h.cfgNblocks h.cfgBsize

theorem State.SameCore.commandProgram (h : s.SameCore t) : t.commandProgram = s.commandProgram := by
  unfold State.commandProgram
  rw [h.cmd]
  split
  · exact h.program _
  · rfl

/-! ## The cases of a step -/

theorem step_nil (h : s.agenda = []) : step s = coreRun s := by simp [step, nextMove, h]

theorem step_cons {e : Event} {rest : List Event} (h : s.agenda = e :: rest) : step s = runEvent s e rest := by
  simp [step, nextMove, h]

/-- The core's turn: nothing while IDLE, else the run of the program of the latched word. -/
theorem coreRun_eq (s : State) :
    coreRun s = if s.busy then runCommand s.commandProgram s else .next s := by
  unfold coreRun State.busy State.commandProgram
  cases s.seq with
  | idle => rfl
  | exec h port =>
    dsimp only
    split
    · next i hi => rw [exec_eq_runCommand]; rfl
    · rfl

/-- Every way one phase goes on (R68, R110): no move, an answer taken, a completion with or without error, a request issued. -/
theorem corePhase_spec (h : corePhase s = .next t) :
    t = s ∨ (∃ hist r, s.seq = .exec hist (.waiting r) ∧ t = (s.receive r).1) ∨
      (∃ hist, s.seq = .exec hist .quiet ∧
        ((∃ e, s.commandProgram.resume hist = .done e ∧ t = s.complete e) ∨
          (∃ k d b, s.commandProgram.resume hist = .raise k d b ∧ t = s.completeError k d b) ∨
          (∃ r k, s.commandProgram.resume hist = .ask r k ∧ t = { s with seq := .exec hist (.waiting r) }))) := by
  unfold corePhase at h
  split at h
  · exact .inl (by simpa using h.symm)
  · exact .inl (by simpa using h.symm)
  · next hist r hs => exact .inr (.inl ⟨hist, r, hs, by simpa using h.symm⟩)
  · next hist hs =>
    refine .inr (.inr ⟨hist, hs, ?_⟩)
    split at h
    · next e he => exact .inl ⟨e, he, by simpa using h.symm⟩
    · next k d b he => exact .inr (.inl ⟨k, d, b, he, by simpa using h.symm⟩)
    · cases h
    · next r k he => exact .inr (.inr ⟨r, k, he, by simpa using h.symm⟩)

/-- Everything a host read changes: the value returned, and the count of free values (R112). -/
theorem hostRead_spec {a : Word} (h : hostRead s a = .next t) : t = { s with rdata := t.rdata, draws := t.draws } := by
  unfold hostRead at h
  split at h
  · cases h
  · simp only at h
    split at h
    · split at h
      · cases h; rfl
      · split at h
        · cases h; rfl
        · cases h
    · cases h; rfl

/-- Everything a host write does: one register, the buffer window while IDLE, or OVR (R43, R45, R73, R74, R472). -/
theorem hostWrite_spec {a v : Word} (h : hostWrite s a v = .next t) :
    t = s ∨ t = s.writeCtrl v ∨ t = s.writeStatus v ∨ (s.busy = false ∧ t = s.accept v) ∨
      (s.busy = true ∧ t = s.overrun) ∨ (∃ i, t = s.writeArg i v) ∨
      (s.busy = false ∧ ∃ b i, t = { s with buf := s.bufWith b i (bytesOfWord v) }) := by
  unfold hostWrite at h
  split at h
  · cases h
  · simp only at h
    split at h
    · cases h
      unfold State.writeWindow
      split
      · next hb => simp [hb]
      · next hb => simp only [hb]; exact .inr (.inr (.inr (.inr (.inr (.inr ⟨trivial, _, _, rfl⟩)))))
    · cases h
      unfold State.writeRegister State.writeCmd
      repeat' split
      all_goals first
        | exact .inr (.inl rfl)
        | exact .inr (.inr (.inl rfl))
        | (next hb => simp [hb])
        | exact .inr (.inr (.inr (.inr (.inr (.inl ⟨_, rfl⟩)))))

/-- Every way a step goes on: a host access, the core's whole turn, a phase, a reset, or an event that only ends a wait. -/
theorem step_spec (h : step s = .next t) :
    (s.busy = true ∧ runCommand s.commandProgram s = .next t) ∨ t = s ∨
      ∃ e rest, s.agenda = e :: rest ∧
        ((∃ a, e = .read a ∧ hostRead (s.afterEvent rest) a = .next t) ∨
          (∃ a v, e = .write a v ∧ hostWrite (s.afterEvent rest) a v = .next t) ∨
          (e = .poll ∧ s.busy = false ∧ t = (s.afterEvent rest).returned s.statusWord) ∨
          (e = .waitIrq ∧ s.irq = true ∧ t = s.afterEvent rest) ∨
          (e = .core ∧ corePhase (s.afterEvent rest) = .next t) ∨
          (e = .reset ∧ t = coreReset (s.afterEvent rest))) := by
  have run : ∀ {u : State}, coreRun s = .next u →
      (s.busy = true ∧ runCommand s.commandProgram s = .next u) ∨ u = s := by
    intro u hu
    rw [coreRun_eq] at hu
    split at hu
    · next hb => exact .inl ⟨hb, hu⟩
    · cases hu; exact .inr rfl
  cases ha : s.agenda with
  | nil =>
    rw [step_nil ha] at h
    rcases run h with h | h
    · exact .inl h
    · exact .inr (.inl h)
  | cons e rest =>
    rw [step_cons ha] at h
    cases e with
    | read a => exact .inr (.inr ⟨_, _, rfl, .inl ⟨a, rfl, h⟩⟩)
    | write a v => exact .inr (.inr ⟨_, _, rfl, .inr (.inl ⟨a, v, rfl, h⟩)⟩)
    | poll =>
      simp only [runEvent, pollEvent] at h
      split at h
      · rcases run h with h | h
        · exact .inl h
        · exact .inr (.inl h)
      · next hb => cases h; exact .inr (.inr ⟨_, _, rfl, .inr (.inr (.inl ⟨rfl, by simpa using hb, rfl⟩))⟩)
    | waitIrq =>
      simp only [runEvent, waitIrqEvent] at h
      split at h
      · next hb => cases h; exact .inr (.inr ⟨_, _, rfl, .inr (.inr (.inr (.inl ⟨rfl, hb, rfl⟩)))⟩)
      · rcases run h with h | h
        · exact .inl h
        · exact .inr (.inl h)
    | core => exact .inr (.inr ⟨_, _, rfl, .inr (.inr (.inr (.inr (.inl ⟨rfl, h⟩))))⟩)
    | reset => cases h; exact .inr (.inr ⟨_, _, rfl, .inr (.inr (.inr (.inr (.inr ⟨rfl, rfl⟩))))⟩)

end Sys2Proof.Machine
end

