-- ==== Sys2Proof/Tests/Slice0.lean ====
section
/-! SUPPORT. My own tests: the WellFormed smoke test, a word of every command written out from R140 and R144, one-step tests
whose expected values are the test vectors of spec/95 (G, B, L, S, T, V, H and the scenarios of its section 1), and a witness
for the hypotheses of every obligation that has some. -/

open Sys2Proof Sys2Proof.Machine Sys2Proof.Spec

namespace Sys2Proof.Tests

set_option Elab.async false

/-! ## Builders -/

/-- Operand registers. -/
def ops (a0 : Nat := 0) (a1 : Nat := 0) (a2 : Nat := 0) (a3 : Nat := 0) (a4 : Nat := 0) (a5 : Nat := 0) : Vector Word 8 :=
  #v[BitVec.ofNat 32 a0, BitVec.ofNat 32 a1, BitVec.ofNat 32 a2, BitVec.ofNat 32 a3, BitVec.ofNat 32 a4,
     BitVec.ofNat 32 a5, 0#32, 0#32]

/-- A command right after its accept, from the state after reset. -/
def start (i : Instr) (o : Vector Word 8) : State :=
  { State.reset with cmd := encode i, args := o, argl := o, seq := .exec [] .quiet }

/-- CFG written. -/
def geom (n nb bs : Nat) (s : State) : State :=
  { s with cfgNdisks := BitVec.ofNat 32 n, cfgNblocks := BitVec.ofNat 32 nb, cfgBsize := BitVec.ofNat 32 bs }

/-- The next `k` responses are OK. -/
def good (k : Nat) (s : State) : State := { s with answers := List.replicate k .ok }

/-- Bytes of a buffer. -/
def load (b : Nat) (bytes : Block) (s : State) : State := { s with buf := s.bufWith b 0 bytes }

/-- A block of four equal bytes on a disk. -/
def lay (d blk : Nat) (x : Byte) (s : State) : State := s.stored d blk 0 [x, x, x, x]

/-- Events to come. -/
def host (l : List Event) (s : State) : State := { s with agenda := l }

/-- The incremental build. -/
def incremental (s : State) : State := { s with params := { s.params with putParityMode := .incremental } }

/-- The outcome is a next state. -/
def goesOn : Host.Outcome State Fault Refusal → Bool
  | .next _ => true
  | .fault _ => false
  | .refused _ => false

/-- The next state, or the state after reset where there is none. -/
def after : Host.Outcome State Fault Refusal → State
  | .next t => t
  | .fault _ => State.reset
  | .refused _ => State.reset

/-- The fault, where there is one. -/
def faultOf : Host.Outcome State Fault Refusal → Option Fault
  | .next _ => none
  | .fault f => some f
  | .refused _ => none

/-- An outcome that goes on is a next state. -/
theorem eq_next {o : Host.Outcome State Fault Refusal} (h : goesOn o = true) : o = .next (after o) := by
  cases o <;> first | rfl | cases h

/-- A command that went on and completed with success. -/
def passed (o : Host.Outcome State Fault Refusal) : Bool :=
  goesOn o && decide ((after o).seq = .idle) && !(after o).err

/-- `passed`, read as the hypotheses of a statement. -/
theorem of_passed {o : Host.Outcome State Fault Refusal} (h : passed o = true) :
    o = .next (after o) ∧ (after o).seq = .idle ∧ (after o).err = false := by
  simp only [passed, Bool.and_eq_true, decide_eq_true_eq, Bool.not_eq_true'] at h
  exact ⟨eq_next h.1.1, h.1.2, h.2⟩

/-! ## Well-formed words (R140, R147) -/

theorem test_reserved_bits_refused : Word.reservedClear 0x00000100#32 = false ∧ Word.reservedClear 0x80000001#32 = false ∧
    Word.wellFormed 0x00000131#32 = false := by decide

theorem test_unassigned_opcode_refused : Word.opcodeAssigned 0x00000005#32 = false ∧
    Word.opcodeAssigned 0x00000000#32 = false ∧ Word.opcodeAssigned 0x00000047#32 = false ∧
    Word.wellFormed 0x000000FF#32 = false := by decide

theorem test_assigned_opcode_accepted : Word.wellFormed 0x00000048#32 = true := by decide

/-! ## Decoding (R143, R144): OPC in bits 7:0, zeros above -/

theorem test_decode_gf : decode 0b00000000000000000000000000000001#32 = .ok .gfMul ∧
    decode 0b00000000000000000000000000000010#32 = .ok .gfPow ∧
    decode 0b00000000000000000000000000000011#32 = .ok .gfInv ∧
    decode 0b00000000000000000000000000000100#32 = .ok .gfSolve2 := ⟨rfl, rfl, rfl, rfl⟩

theorem test_decode_block : decode 0b00000000000000000000000000010000#32 = .ok .blkXor ∧
    decode 0b00000000000000000000000000010001#32 = .ok .blkScale ∧
    decode 0b00000000000000000000000000010010#32 = .ok .parComputeP ∧
    decode 0b00000000000000000000000000010011#32 = .ok .parComputeQ ∧
    decode 0b00000000000000000000000000010100#32 = .ok .parUpdateP ∧
    decode 0b00000000000000000000000000010101#32 = .ok .parUpdateQ := ⟨rfl, rfl, rfl, rfl, rfl, rfl⟩

theorem test_decode_layout : decode 0b00000000000000000000000000100000#32 = .ok .layPdiskP ∧
    decode 0b00000000000000000000000000100001#32 = .ok .layPdiskQ ∧
    decode 0b00000000000000000000000000100010#32 = .ok .layIspar ∧
    decode 0b00000000000000000000000000100011#32 = .ok .layResolve := ⟨rfl, rfl, rfl, rfl⟩

theorem test_decode_storage : decode 0b00000000000000000000000000110000#32 = .ok .init ∧
    decode 0b00000000000000000000000000110001#32 = .ok .put ∧
    decode 0b00000000000000000000000000110010#32 = .ok .putraw ∧
    decode 0b00000000000000000000000000110011#32 = .ok .get := ⟨rfl, rfl, rfl, rfl⟩

theorem test_decode_recovery : decode 0b00000000000000000000000001000000#32 = .ok .recSingleData ∧
    decode 0b00000000000000000000000001000001#32 = .ok .recSingleParity ∧
    decode 0b00000000000000000000000001000010#32 = .ok .recDoubleData ∧
    decode 0b00000000000000000000000001000011#32 = .ok .recDoubleParity ∧
    decode 0b00000000000000000000000001000100#32 = .ok .recDataAndParity ∧
    decode 0b00000000000000000000000001001000#32 = .ok .check := ⟨rfl, rfl, rfl, rfl, rfl, rfl⟩

/-- H5 to H8: a reserved bit, the word 0, and opcodes between and above the assigned ones are illegal. -/
theorem test_decode_illegal : decode 0x00000131#32 = .error .reservedBits ∧ decode 0x00000000#32 = .error .unassignedOpcode ∧
    decode 0x00000005#32 = .error .unassignedOpcode ∧ decode 0x000000FF#32 = .error .unassignedOpcode ∧
    decodeTableWord 8 0x131 = some .put := ⟨rfl, rfl, rfl, rfl, rfl⟩

/-- No two rows of the opcode map accept one word. -/
theorem test_rows_disjoint : opcodeTable.Pairwise (fun r q => r.pattern ≠ q.pattern ∧ r.mask = q.mask) := by decide

/-- Every table word runs as the first command after reset. -/
theorem test_every_word_steps : opcodeTable.all (fun r => goesOn (step (State.reset.withFetchWord 32 r.pattern.toNat))) := by
  decide +kernel

/-! ## One step of each command: the vectors of spec/95 -/

/-- G4: the reduction by 0x11D; G6: bits 31:8 ignored. -/
theorem test_gf_mul : (after (step (State.reset.withFetchWord 32 0x01))).statusWord = 0x002#32 ∧
    (after (exec .gfMul (start .gfMul (ops 0x02 0x80)))).res = #v[0x1D#32, 0#32, 0#32, 0#32] ∧
    (after (exec .gfMul (start .gfMul (ops 0xFFFFFF02 0x180)))).res[0] = 0x1D#32 := by decide +kernel

/-- G11, G14: negative exponents. -/
theorem test_gf_pow : (after (exec .gfPow (start .gfPow (ops 0xFFFFFFFF)))).res[0] = 0x8E#32 ∧
    (after (exec .gfPow (start .gfPow (ops 0x80000000)))).res[0] = 0xCC#32 := by decide +kernel

/-- G15. -/
theorem test_gf_inv : (after (exec .gfInv (start .gfInv (ops 0x53)))).res[0] = 0x8C#32 := by decide +kernel

/-- G23: 0 after masking is a DomainError. -/
theorem test_gf_inv_zero : (after (exec .gfInv (start .gfInv (ops 0x100)))).statusWord = 0x706#32 ∧
    (after (exec .gfInv (start .gfInv (ops 0x100)))).errOpc = 3#32 := by decide +kernel

/-- G26. -/
theorem test_gf_solve2 : (after (exec .gfSolve2 (start .gfSolve2 (ops 2 5 0x5A 0x33)))).res =
    #v[0x22#32, 0x78#32, 0x9C#32, 0x60#32] := by decide +kernel

/-- G31: 0 and 255 are the same exponent. -/
theorem test_gf_solve2_singular : (after (exec .gfSolve2 (start .gfSolve2 (ops 0 255 0x12 0x34)))).statusWord = 0x706#32 := by
  decide +kernel

/-- The buffers of the B vectors. -/
def bufs (s : State) : State :=
  load 9 [0xFF, 0x80, 0x01, 0x00] <| load 8 [0, 0, 0, 0] <| load 3 [0x20, 0x20, 0x20, 0x20] <|
  load 2 [0x10, 0x10, 0x10, 0x10] <| load 1 [0xFF, 0xFF, 0xFF, 0xFF] <| load 0 [1, 1, 1, 1] s

/-- B3: the destination is a source; B16: dst >= NBUF. -/
theorem test_blk_xor : (after (exec .blkXor (bufs (start .blkXor (ops 0 0 1 4))))).bufBytes 0 0 4 =
      some [0xFE, 0xFE, 0xFE, 0xFE] ∧
    (after (exec .blkXor (bufs (start .blkXor (ops 16 0 1 4))))).statusWord = 0x206#32 := by decide +kernel

/-- U3: an operand byte that nothing has written. -/
theorem test_blk_xor_unwritten : faultOf (exec .blkXor (bufs (start .blkXor (ops 6 0 1 5)))) = some .unwrittenBuffer := by
  decide +kernel

/-- B4. -/
theorem test_blk_scale : (after (exec .blkScale (bufs (start .blkScale (ops 7 9 2 4))))).bufBytes 7 0 4 =
    some [0xE3, 0x1D, 0x02, 0x00] := by decide +kernel

/-- B7, B21: the sum first + count does not wrap. -/
theorem test_par_compute_p : (after (exec .parComputeP (bufs (start .parComputeP (ops 4 0 4 4))))).bufBytes 4 0 4 =
      some [0xCE, 0xCE, 0xCE, 0xCE] ∧
    (after (exec .parComputeP (bufs (start .parComputeP (ops 4 0xFFFFFFFF 2 4))))).statusWord = 0x206#32 := by
  decide +kernel

/-- B8. -/
theorem test_par_compute_q : (after (exec .parComputeQ (bufs (start .parComputeQ (ops 5 0 4 4))))).bufBytes 5 0 4 =
    some [0xBF, 0xBF, 0xBF, 0xBF] := by decide +kernel

/-- B11. -/
theorem test_par_update_p :
    (after (exec .parUpdateP (load 4 [0xCE, 0xCE, 0xCE, 0xCE] (bufs (start .parUpdateP (ops 4 2 8 4 4)))))).bufBytes 4 0 4 =
    some [0xDE, 0xDE, 0xDE, 0xDE] := by decide +kernel

/-- B14, B15: the exponent is taken modulo 255, and is signed. -/
theorem test_par_update_q :
    (after (exec .parUpdateQ (load 5 [0xBF, 0xBF, 0xBF, 0xBF] (bufs (start .parUpdateQ (ops 5 2 8 5 4 257)))))).bufBytes 5 0 4 =
      some [0xFF, 0xFF, 0xFF, 0xFF] ∧
    (after (exec .parUpdateQ (load 5 [0xBF, 0xBF, 0xBF, 0xBF]
      (bufs (start .parUpdateQ (ops 5 2 8 5 4 0xFFFFFF01)))))).bufBytes 5 0 4 = some [0xAF, 0xAF, 0xAF, 0xAF] := by
  decide +kernel

/-- L2, L5. -/
theorem test_lay_pdisk_p : (after (exec .layPdiskP (geom 6 4 16 (start .layPdiskP (ops 3))))).res[0] = 1#32 ∧
    (after (exec .layPdiskP (geom 6 4 16 (start .layPdiskP (ops 4))))).errStripe = 4#32 := by decide +kernel

/-- L4; and the wrap: with NB = 8, stripe 5 has Q = 0. -/
theorem test_lay_pdisk_q : (after (exec .layPdiskQ (geom 6 4 16 (start .layPdiskQ (ops 3))))).res[0] = 2#32 ∧
    (after (exec .layPdiskQ (geom 6 8 16 (start .layPdiskQ (ops 5))))).res[0] = 0#32 := by decide +kernel

/-- L6, L9. -/
theorem test_lay_ispar : (after (exec .layIspar (geom 6 4 16 (start .layIspar (ops 5 1))))).res = #v[0#32, 3#32, 0#32, 0#32] ∧
    (after (exec .layIspar (geom 6 4 16 (start .layIspar (ops 2 3))))).res = #v[1#32, 1#32, 0#32, 0#32] := by
  decide +kernel

/-- L15. -/
theorem test_lay_resolve : (after (exec .layResolve (geom 6 4 16 (start .layResolve (ops 5 35))))).res =
    #v[3#32, 3#32, 0#32, 0#32] := by decide +kernel

/-- L18: the largest position. -/
theorem test_lay_resolve_far :
    (after (exec .layResolve (geom 6 4 16 (start .layResolve (ops 0 0xFFFFFFFF))))).statusWord = 0x206#32 ∧
    (after (exec .layResolve (geom 6 4 16 (start .layResolve (ops 0 0xFFFFFFFF))))).errStripe = 0x17FFFFFD#32 := by
  decide +kernel

/-- S3, S9. -/
theorem test_init : (after (exec .init (start .init (ops 257 1 4096)))).cfgNdisks = 257#32 ∧
    (after (exec .init (start .init (ops 2 0 0)))).statusWord = 0x306#32 := by decide +kernel

/-- T9: a PUT to disk 4, whose first data stripe is stripe 2 (four bytes of the block here). -/
theorem test_put :
    let t := after (exec .put (good 7 (load 0 [1, 1, 1, 1] (geom 6 4 4 (start .put (ops 4 0 4 0))))))
    t.res = #v[2#32, 0#32, 0#32, 0#32] ∧ t.diskBytes 4 2 0 4 = [1, 1, 1, 1] ∧ t.diskBytes 2 2 0 4 = [1, 1, 1, 1] ∧
      t.diskBytes 3 2 0 4 = [4, 4, 4, 4] := by decide +kernel

/-- Section 2.5: the P write of a PUT fails, and the error names it. -/
theorem test_put_parity_write_fails :
    let t := after (exec .put { load 0 [1, 1, 1, 1] (geom 6 4 4 (start .put (ops 1 0 4 0))) with
      answers := List.replicate 5 .ok ++ [.fail .io] })
    t.statusWord = 0x506#32 ∧ t.errDisk = 4#32 ∧ t.errStripe = 0#32 := by decide +kernel

/-- Scenario 1 step 3: one byte, parity left stale. -/
theorem test_putraw :
    let t := after (exec .putraw (good 1 (load 2 [0] (lay 1 0 0xFF (geom 6 4 4 (start .putraw (ops 1 0 1 2)))))))
    t.diskBytes 1 0 0 4 = [0x00, 0xFF, 0xFF, 0xFF] ∧ t.statusWord = 0x002#32 := by decide +kernel

/-- T11; and a GET of a written block. -/
theorem test_get : (after (exec .get (geom 6 4 16 (start .get (ops 4 15 2 1))))).errStripe = 2#32 ∧
    (after (exec .get (good 1 (lay 1 0 0xFF (geom 6 4 4 (start .get (ops 1 1 2 3))))))).bufBytes 3 0 2 =
      some [0xFF, 0xFF] := by decide +kernel

/-- Stripe 1 of section 2.5, with blocks of four bytes: data 11, 22, 33, 44, P = 44, Q = 83. -/
def stripe1 (s : State) : State :=
  lay 4 1 0x83 <| lay 3 1 0x44 <| lay 5 1 0x44 <| lay 2 1 0x33 <| lay 1 1 0x22 <| lay 0 1 0x11 <| geom 6 4 4 s

/-- The store holds the stripe's consistent contents again. -/
def restored (s t : State) : Bool := decide (t.disk = (stripe1 s).disk)

/-- V17. -/
theorem test_rec_single_data : let s := good 5 (start .recSingleData (ops 1 2 1))
    let t := after (exec .recSingleData (lay 2 1 0x5A (stripe1 s)))
    restored s t = true ∧ t.res[0] = 1#32 ∧ t.answers = [] := by decide +kernel

/-- V18. -/
theorem test_rec_single_parity : let s := good 5 (start .recSingleParity (ops 1 4 1))
    let t := after (exec .recSingleParity (lay 4 1 0x5A (stripe1 s)))
    restored s t = true ∧ t.res[0] = 1#32 ∧ t.answers = [] := by decide +kernel

/-- V19: the listed order is not the disk order. -/
theorem test_rec_double_data : let s := good 6 (start .recDoubleData (ops 2 5 1 1 1))
    let t := after (exec .recDoubleData (lay 1 1 0x5A (lay 5 1 0x5A (stripe1 s))))
    restored s t = true ∧ t.res[0] = 2#32 ∧ t.answers = [] := by decide +kernel

/-- V20. -/
theorem test_rec_double_parity : let s := good 6 (start .recDoubleParity (ops 2 4 1 3 1))
    let t := after (exec .recDoubleParity (lay 3 1 0x55 (lay 4 1 0xAA (stripe1 s))))
    restored s t = true ∧ t.res[0] = 2#32 ∧ t.answers = [] := by decide +kernel

/-- V21: the RS branch. -/
theorem test_rec_data_and_p : let s := good 6 (start .recDataAndParity (ops 2 5 1 3 1))
    let t := after (exec .recDataAndParity (lay 3 1 0x55 (lay 5 1 0x5A (stripe1 s))))
    restored s t = true ∧ t.res[0] = 2#32 ∧ t.answers = [] := by decide +kernel

/-- V22: the XOR branch, the parity block listed first. -/
theorem test_rec_data_and_q : let s := good 6 (start .recDataAndParity (ops 2 4 1 0 1))
    let t := after (exec .recDataAndParity (lay 4 1 0xAA (lay 0 1 0x5A (stripe1 s))))
    restored s t = true ∧ t.res[0] = 2#32 ∧ t.answers = [] := by decide +kernel

/-- Section 2.5: a store whose only defect is Q of stripe 2. -/
theorem test_check : let t := after (exec .check (good 18 (lay 3 2 0x01 (geom 6 4 4 (start .check (ops))))))
    t.res = #v[1#32, 2#32, 0#32, 0#32] ∧ t.statusWord = 0x002#32 ∧ t.answers = [] := by decide +kernel

/-! ## The host port (H vectors) -/

/-- H1, H3. -/
theorem test_register_reads : (after (step (host [.read 0#32] State.reset))).rdata = 0x52364746#32 ∧
    (after (step (host [.read 0x8#32] State.reset))).rdata = 0x00000C10#32 ∧
    (after (step (host [.read 0x80#32] State.reset))).rdata = 0#32 := by decide +kernel

/-- H7: an illegal word; H10: DONE cleared, ERR kept. -/
theorem test_illegal_word : let t := after (step (State.reset.withFetchWord 32 0x131))
    t.statusWord = 0x606#32 ∧ t.errOpc = 0x131#32 ∧ t.errDisk = 0xFFFFFFFF#32 ∧
      (after (step (host [.write 0x24#32 2#32] t))).statusWord = 0x604#32 := by decide +kernel

/-- H13: a CMD write while BUSY = 1. -/
theorem test_cmd_dropped_while_busy :
    (after (step (host [.write 0x28#32 1#32] (start .gfMul (ops 2 3))))).statusWord = 0x009#32 ∧
    (after (step (host [.write 0x28#32 2#32] (start .gfMul (ops 2 3))))).cmd = 1#32 := by decide +kernel

/-- R102: the low byte of a window word is the first byte. -/
theorem test_window_byte_order :
    (after (step (host [.write 0x13000#32 0x04030201#32] State.reset))).bufBytes 3 0 4 = some [1, 2, 3, 4] := by
  decide +kernel

/-- H17, R452: a reset with a PUT's P write outstanding leaves STATUS 0. -/
theorem test_reset_in_exec :
    (after (step (host [.reset] { start .put (ops 1 0 4 0) with
      seq := .exec [] (.waiting (.write 4 0 0 [1, 1, 1, 1])) }))).statusWord = 0#32 := by decide +kernel

/-! ## The BlockStore's premise and the end of a run -/

/-- R461(a): a store whose geometry is CFG never answers FAIL(BOUNDS); R108: one with shorter blocks does. -/
theorem test_geometry_decides_bounds :
    (let s := { geom 6 4 4 (start .get (ops 1 0 4 3)) with geometry := some ⟨6, 4, 4⟩, answers := [.fail .bounds] };
      s.Provisioned ∧ (after (exec .get s)).statusWord = 0x002#32) ∧
    (after (exec .get { geom 6 4 4 (start .get (ops 1 0 4 3)) with
      geometry := some ⟨6, 4, 3⟩, answers := [.ok] })).statusWord = 0x206#32 := by decide +kernel

/-- All-zero contents satisfy (P) and (Q), so the launch premise is met from a blank store (R461). -/
theorem test_launch_premise :
    ({ geom 6 4 4 (start .check (ops)) with geometry := some ⟨6, 4, 4⟩ } : State).LaunchPremise := by
  unfold State.LaunchPremise State.Consistent; decide +kernel

/-- R478: each command leaves its completion record, and a command in EXEC has not let the run end. -/
theorem test_observation_records_completions :
    let s := start .gfMul (ops 0x02 0x80)
    let t := after (exec .gfMul s)
    s.observation = none ∧ t.runEnded = true ∧
      t.completions = [{ cmd := 1#32, res := #v[0x1D#32, 0#32, 0#32, 0#32], error := none }] ∧
      (after (exec .gfInv (start .gfInv (ops 0)))).completions =
        [{ cmd := 3#32, res := #v[0#32, 0#32, 0#32, 0#32], error := some (.domain, noContext, noContext) }] := by
  decide +kernel

/-! ## Witnesses: states and operands that meet the hypotheses of each statement, clause by clause -/

theorem witness_GfMulResult : (start .gfMul (ops 0xFF 0xFF)).Started := rfl

theorem witness_GfPowResult : (start .gfPow (ops 0x80000000)).Started := rfl

/-- 0 after masking, and a value that has an inverse. -/
theorem witness_GfInvResult : (let s := start .gfInv (ops 0x100); s.Started ∧ s.b 0 = 0#8) ∧
    (let s := start .gfInv (ops 0x101); s.Started ∧ s.b 0 ≠ 0#8) := by decide +kernel

/-- 0 and 255 agree modulo 255; 0 and 254 do not. -/
theorem witness_GfSolve2Result :
    (let s := start .gfSolve2 (ops 0 255); s.Started ∧ ((s.b 0).toNat : Int) % 255 = ((s.b 1).toNat : Int) % 255) ∧
    (let s := start .gfSolve2 (ops 0 254); s.Started ∧ ((s.b 0).toNat : Int) % 255 ≠ ((s.b 1).toNat : Int) % 255) := by
  decide +kernel

theorem witness_GfTablesArePowers : (0x01#8 : Byte) ≠ 0#8 ∧ gfPow (254 : Nat) = 0x8E#8 ∧ gfMul 0x02#8 0x8E#8 = 0x01#8 := by
  decide +kernel

/-- dst = NBUF; dst = NBUF - 1 with written operands; an operand with one unwritten byte. -/
theorem witness_BlkXorResult :
    (let s := bufs (start .blkXor (ops 16 0 1 4)); s.Started ∧ ¬BufferOk s (s.u 0)) ∧
    (let s := bufs (start .blkXor (ops 15 0 1 4)); s.Started ∧
      (BufferOk s (s.u 0) ∧ BufferOk s (s.u 1) ∧ BufferOk s (s.u 2) ∧ LenOk s (s.u 3)) ∧
      Holds s (s.u 1) (s.u 3) (fun _ => 1#8) ∧ Holds s (s.u 2) (s.u 3) (fun _ => 0xFF#8)) ∧
    (let s := bufs (start .blkXor (ops 15 0 1 5)); s.Started ∧
      (BufferOk s (s.u 0) ∧ BufferOk s (s.u 1) ∧ BufferOk s (s.u 2) ∧ LenOk s (s.u 3)) ∧
      Unwritten s (s.u 1) (s.u 3)) := by
  unfold BufferOk LenOk Holds Unwritten; decide +kernel

/-- len = 0; len = 4; len = MAX_BSIZE with its last byte unwritten. -/
theorem witness_BlkScaleResult :
    (let s := bufs (start .blkScale (ops 7 1 2 0)); s.Started ∧ ¬LenOk s (s.u 3)) ∧
    (let s := bufs (start .blkScale (ops 7 1 2 4)); s.Started ∧
      (BufferOk s (s.u 0) ∧ BufferOk s (s.u 1) ∧ LenOk s (s.u 3)) ∧ Holds s (s.u 1) (s.u 3) (fun _ => 0xFF#8)) ∧
    (let s := bufs (start .blkScale (ops 7 1 2 4096)); s.Started ∧
      (BufferOk s (s.u 0) ∧ BufferOk s (s.u 1) ∧ LenOk s (s.u 3)) ∧ s.bufByte (s.u 1) 4095 = none) := by
  unfold BufferOk LenOk Holds; decide +kernel

/-- count = 0; the four buffers 0 to 3; first + count = NBUF with an unwritten buffer. -/
theorem witness_ParComputeResult :
    (let s := bufs (start .parComputeP (ops 5 0 0 4)); s.Started ∧ ¬(1 ≤ s.u 2)) ∧
    (let s := bufs (start .parComputeP (ops 5 0 2 4)); s.Started ∧
      (BufferOk s (s.u 0) ∧ BufferOk s (s.u 1) ∧ 1 ≤ s.u 2 ∧ s.u 1 + s.u 2 ≤ s.params.nbuf ∧ LenOk s (s.u 3)) ∧
      ∀ j < s.u 2, Holds s (s.u 1 + j) (s.u 3) (fun _ => if j = 0 then 1#8 else 0xFF#8)) ∧
    (let s := bufs (start .parComputeP (ops 5 9 7 4)); s.Started ∧
      (BufferOk s (s.u 0) ∧ BufferOk s (s.u 1) ∧ 1 ≤ s.u 2 ∧ s.u 1 + s.u 2 ≤ s.params.nbuf ∧ LenOk s (s.u 3)) ∧
      ∃ j < s.u 2, Unwritten s (s.u 1 + j) (s.u 3)) := by
  unfold BufferOk LenOk Holds Unwritten; decide +kernel

/-- len above MAX_BSIZE; written operands; an unwritten one. -/
theorem witness_ParUpdateResult :
    (let s := bufs (start .parUpdateQ (ops 4 0 1 2 4097)); s.Started ∧ ¬LenOk s (s.u 4)) ∧
    (let s := bufs (start .parUpdateQ (ops 4 0 1 2 4)); s.Started ∧
      (BufferOk s (s.u 0) ∧ BufferOk s (s.u 1) ∧ BufferOk s (s.u 2) ∧ BufferOk s (s.u 3) ∧ LenOk s (s.u 4)) ∧
      Holds s (s.u 1) (s.u 4) (fun _ => 1#8) ∧ Holds s (s.u 2) (s.u 4) (fun _ => 0xFF#8) ∧
      Holds s (s.u 3) (s.u 4) (fun _ => 0x10#8)) ∧
    (let s := bufs (start .parUpdateQ (ops 4 0 1 15 1)); s.Started ∧
      (BufferOk s (s.u 0) ∧ BufferOk s (s.u 1) ∧ BufferOk s (s.u 2) ∧ BufferOk s (s.u 3) ∧ LenOk s (s.u 4)) ∧
      Unwritten s (s.u 3) (s.u 4)) := by
  unfold BufferOk LenOk Holds Unwritten; decide +kernel

theorem witness_UpdateAgreesWithCompute : let ds : List Block := [[1, 2], [3, 4], [5, 6]]
    2 < ds.length ∧ (∀ d ∈ ds, d.length = 2) ∧ ([7, 8] : Block).length = 2 := by decide

/-- A command with no buffer destination, and one whose byte just behind its destination is asked for. -/
theorem witness_BufferFrame :
    (let s := bufs (start .gfMul (ops 2 3)); s.CfgLegal ∧ exec .gfMul s = .next (after (exec .gfMul s)) ∧
      bufferTarget .gfMul s = none) ∧
    (let s := bufs (start .blkXor (ops 6 0 1 4)); s.CfgLegal ∧ exec .blkXor s = .next (after (exec .blkXor s)) ∧
      bufferTarget .blkXor s = some (6, 4) ∧ 4 < s.params.maxBsize ∧ ¬(6 = 6 ∧ 4 < 4)) :=
  ⟨⟨by decide, eq_next (by decide +kernel), rfl⟩,
   ⟨by decide, eq_next (by decide +kernel), by decide, by decide, by decide⟩⟩

/-- Not configured; stripe NB; stripe NB - 1. -/
theorem witness_LayPdiskResult :
    (let s := start .layPdiskP (ops 0); s.Started ∧ s.n < 3) ∧
    (let s := geom 6 4 16 (start .layPdiskP (ops 4)); s.Started ∧ 3 ≤ s.n ∧ s.nb ≤ s.u 0) ∧
    (let s := geom 6 4 16 (start .layPdiskQ (ops 3)); s.Started ∧ 3 ≤ s.n ∧ s.u 0 < s.nb) := by decide

/-- Not configured; disk n; stripe NB; a P block, a Q block, a data block. -/
theorem witness_LayIsparResult :
    (let s := start .layIspar (ops 0 0); s.Started ∧ s.n < 3) ∧
    (let s := geom 6 4 16 (start .layIspar (ops 6 4)); s.Started ∧ 3 ≤ s.n ∧ s.n ≤ s.u 0) ∧
    (let s := geom 6 4 16 (start .layIspar (ops 5 4)); s.Started ∧ 3 ≤ s.n ∧ s.u 0 < s.n ∧ s.nb ≤ s.u 1) ∧
    (let s := geom 6 4 16 (start .layIspar (ops 4 0)); s.Started ∧ 3 ≤ s.n ∧ s.u 0 < s.n ∧ s.u 1 < s.nb ∧
      s.u 0 = pDisk s (s.u 1)) ∧
    (let s := geom 6 4 16 (start .layIspar (ops 5 0)); s.Started ∧ 3 ≤ s.n ∧ s.u 0 < s.n ∧ s.u 1 < s.nb ∧
      s.u 0 = qDisk s (s.u 1)) ∧
    (let s := geom 6 4 16 (start .layIspar (ops 5 3)); s.Started ∧ 3 ≤ s.n ∧ s.u 0 < s.n ∧ s.u 1 < s.nb ∧
      s.u 0 ≠ pDisk s (s.u 1) ∧ s.u 0 ≠ qDisk s (s.u 1)) := by decide

/-- Not configured; disk n; the walk ends at stripe 6 >= NB; the walk ends at stripe 3 = NB - 1. -/
theorem witness_LayResolveResult :
    (let s := start .layResolve (ops 0 0); s.Started ∧ s.n < 3) ∧
    (let s := geom 6 4 16 (start .layResolve (ops 6 0)); s.Started ∧ 3 ≤ s.n ∧ s.n ≤ s.u 0) ∧
    (let s := geom 6 4 16 (start .layResolve (ops 0 64)); s.Started ∧ 3 ≤ s.n ∧ s.u 0 < s.n ∧
      resolveWalk s.n (s.u 0) (s.u 1 / s.bs) 7 0 0 = some 6 ∧ s.nb ≤ 6) ∧
    (let s := geom 6 4 16 (start .layResolve (ops 0 63)); s.Started ∧ 3 ≤ s.n ∧ s.u 0 < s.n ∧
      resolveWalk s.n (s.u 0) (s.u 1 / s.bs) 7 0 0 = some 3 ∧ 3 < s.nb) := by decide +kernel

/-- The smallest array, its last disk, the first stripe where that disk is P and the first where it is Q. -/
theorem witness_ParityRotation : 3 ≤ 3 ∧ 2 < 3 ∧ parityDisk 3 2 0 = 2 ∧ parityDisk 3 0 1 = 2 ∧ (1 : Nat) < 2 := by decide

theorem witness_ResolveIsTheWalk : 3 ≤ 3 ∧ 2 < 3 ∧ resolveWalk 3 2 (8 / 4) 8 0 0 = some 7 ∧ resolve 3 4 2 8 = (7, 0) := by
  decide

/-- n = 2 and n = 258; NB = 0, BS = 0, BS = MAX_BSIZE + 1; the smallest and the largest geometry. -/
theorem witness_InitResult :
    (let s := start .init (ops 2 1 1); s.Started ∧ s.u 0 < 3) ∧ (let s := start .init (ops 258 1 1); s.Started ∧ 257 < s.u 0) ∧
    (let s := start .init (ops 3 0 1); s.Started ∧ 3 ≤ s.u 0 ∧ s.u 0 ≤ 257 ∧ s.u 1 = 0) ∧
    (let s := start .init (ops 257 1 0); s.Started ∧ 3 ≤ s.u 0 ∧ s.u 0 ≤ 257 ∧ s.u 2 = 0) ∧
    (let s := start .init (ops 257 1 4097); s.Started ∧ 3 ≤ s.u 0 ∧ s.u 0 ≤ 257 ∧ s.params.maxBsize < s.u 2) ∧
    (let s := start .init (ops 3 1 1); s.Started ∧ 3 ≤ s.u 0 ∧ s.u 0 ≤ 257 ∧ 1 ≤ s.u 1 ∧ 1 ≤ s.u 2 ∧
      s.u 2 ≤ s.params.maxBsize) ∧
    (let s := start .init (ops 257 0xFFFFFFFF 4096); s.Started ∧ 3 ≤ s.u 0 ∧ s.u 0 ≤ 257 ∧ 1 ≤ s.u 1 ∧ 1 ≤ s.u 2 ∧
      s.u 2 ≤ s.params.maxBsize) := by decide

/-- T1 to T7 and T11: each check of R360 in turn. -/
theorem witness_TransferErrors :
    let s := fun o => geom 6 4 16 (start .put o)
    (start .put (ops 0 0 16 0)).Started ∧ (s (ops 6 0 16 0)).Started ∧
    transferError (start .put (ops 0 0 16 0)) = some (.layout, noContext, noContext) ∧
    transferError (s (ops 6 0 16 0)) = some (.layout, 6#32, noContext) ∧
    transferError (s (ops 0 0 0 0)) = some (.bounds, 0#32, noContext) ∧
    transferError (s (ops 0 0 17 0)) = some (.bounds, 0#32, noContext) ∧
    transferError (s (ops 0 0 16 16)) = some (.bounds, 0#32, noContext) ∧
    transferError (s (ops 0 64 16 0)) = some (.bounds, 0#32, 6#32) ∧
    transferError (s (ops 4 15 2 1)) = some (.bounds, 4#32, 2#32) := by decide +kernel

/-- A store whose geometry is exactly CFG, and answers OK; a FAIL of a store with no geometry stated; and an OK input to a
store whose blocks are one byte shorter than CFG says. -/
theorem witness_GetResult :
    (let s := good 1 { geom 6 4 4 (start .get (ops 1 0 4 15)) with geometry := some ⟨6, 4, 4⟩ };
      s.Started ∧ transferError s = none ∧ s.StoreCovers ∧ s.AnswersOk 1) ∧
    (let s := { geom 6 4 4 (start .get (ops 1 3 1 0)) with answers := [.fail .bounds] };
      s.Started ∧ transferError s = none ∧ s.answers = .fail .bounds :: [] ∧
        StoreFails s (targetRead s) (.fail .bounds) .bounds) ∧
    (let s := good 1 { geom 6 4 4 (start .get (ops 1 3 1 0)) with geometry := some ⟨6, 4, 3⟩ };
      s.Started ∧ transferError s = none ∧ s.answers = .ok :: [] ∧ StoreFails s (targetRead s) .ok .bounds) := by
  unfold StoreFails; decide +kernel

/-- A written operand and an OK; a FAIL; an operand whose last byte nothing has written. -/
theorem witness_PutrawResult :
    (let s := good 1 (load 2 [7] (geom 6 4 4 (start .putraw (ops 1 3 1 2))));
      s.Started ∧ transferError s = none ∧ Holds s (s.u 3) (s.u 2) (fun _ => 7#8) ∧ s.StoreCovers ∧ s.AnswersOk 1) ∧
    (let s := { load 2 [7] (geom 6 4 4 (start .putraw (ops 1 0 1 2))) with answers := [.fail .io] };
      s.Started ∧ transferError s = none ∧ Holds s (s.u 3) (s.u 2) (fun _ => 7#8) ∧ s.answers = .fail .io :: [] ∧
        StoreFails s (targetWrite s fun _ => 7#8) (.fail .io) .io ∧
        ¬(1 = s.u 0 ∧ 0 = (target s).1 ∧ (target s).2 ≤ 1 ∧ 1 < (target s).2 + s.u 2)) ∧
    (let s := load 2 [7] (geom 6 4 4 (start .putraw (ops 1 0 2 2)));
      s.Started ∧ transferError s = none ∧ Unwritten s (s.u 3) (s.u 2)) := by
  unfold Holds StoreFails Unwritten; decide +kernel

/-- A PUT of a piece of a block on a store with data. -/
def putState (k : Nat) (s : State) : State := good k (load 3 [9, 9] (stripe1 s))

/-- A written operand; and one whose last byte nothing has written, with the n - 2 reads answered. -/
theorem witness_PutRecomputeResult :
    (let s := putState 7 (start .put (ops 5 2 2 3));
      s.Started ∧ s.params.putParityMode = .recompute ∧ transferError s = none ∧ s.StoreCovers ∧ s.AnswersOk (s.n + 1) ∧
        Holds s (s.u 3) (s.u 2) (fun _ => 9#8)) ∧
    (let s := putState 4 (start .put (ops 5 0 3 3));
      s.Started ∧ s.params.putParityMode = .recompute ∧ transferError s = none ∧ s.StoreCovers ∧ s.AnswersOk (s.n - 2) ∧
        Unwritten s (s.u 3) (s.u 2)) := by unfold Holds Unwritten; decide +kernel

/-- A written operand; and one whose last byte nothing has written, with the three reads answered. -/
theorem witness_PutIncrementalResult :
    (let s := incremental (putState 6 (start .put (ops 5 2 2 3)));
      s.Started ∧ s.params.putParityMode = .incremental ∧ transferError s = none ∧ s.StoreCovers ∧ s.AnswersOk 6 ∧
        Holds s (s.u 3) (s.u 2) (fun _ => 9#8)) ∧
    (let s := incremental (putState 3 (start .put (ops 5 0 3 3)));
      s.Started ∧ s.params.putParityMode = .incremental ∧ transferError s = none ∧ s.StoreCovers ∧ s.AnswersOk 3 ∧
        Unwritten s (s.u 3) (s.u 2)) := by unfold Holds Unwritten; decide +kernel

/-- A PUT in each mode that succeeds, on a stripe that satisfies (P) and (Q). -/
theorem witness_PutKeepsStripeInvariants :
    (let s := putState 7 (start .put (ops 5 2 2 3)); s.Started ∧ passed (exec .put s) = true ∧
      s.params.putParityMode = .recompute) ∧
    (let s := incremental (putState 6 (start .put (ops 5 2 2 3))); s.Started ∧ passed (exec .put s) = true ∧
      s.params.putParityMode = .incremental ∧ (target s).1 = 1 ∧ s.InvariantP 1 ∧ s.InvariantQ 1) := by decide +kernel

/-- A PUT, and then the GET of the same bytes into another buffer. -/
theorem witness_PutThenGet :
    let s := putState 7 (start .put (ops 5 2 2 3))
    let t := after (exec .put s)
    let v := good 1 { t with argl := ops 5 2 2 4, seq := .exec [] .quiet }
    s.Started ∧ passed (exec .put s) = true ∧
      (∀ off < s.bs, v.diskByte (s.u 0) (target s).1 off = t.diskByte (s.u 0) (target s).1 off) ∧ v.Started ∧ (∀ i < 3, v.argl[i]? = s.argl[i]?) ∧
      passed (exec .get v) = true ∧ 1 < s.u 2 := by decide +kernel

/-- A REC_SINGLE_DATA after its first read, the next read failing; an INCREMENTAL PUT whose data WRITE, after its three reads,
fails, with the byte just behind the write; a PUT on a store provisioned as R461(a) says; and a PUT whose P write fails. -/
theorem witness_StoreFailureCompletes :
    (let s := { stripe1 (start .recSingleData (ops 1 2 1)) with
        seq := .exec [.ok [0x11, 0x11, 0x11, 0x11]] .quiet, answers := [.fail .config] };
      s.isStalled = false ∧ (∃ k, (program .recSingleData s).resume s.history = .ask (.read 1 1 0 4) k) ∧
        s.answers = .fail .config :: [] ∧ StoreFails s (.read 1 1 0 4) (.fail .config) .config) ∧
    (let s := { incremental (putState 0 (start .put (ops 5 0 2 3))) with
        seq := .exec [.ok [1, 1], .ok [1, 1], .ok [1, 1]] .quiet, answers := [.fail .io] };
      s.isStalled = false ∧ (∃ k, (program .put s).resume s.history = .ask (.write 5 1 0 [9, 9]) k) ∧
        s.answers = .fail .io :: [] ∧ StoreFails s (.write 5 1 0 [9, 9]) (.fail .io) .io ∧
        Untouched (.write 5 1 0 [9, 9]) 5 1 2) ∧
    (let s := { geom 6 4 4 (start .put (ops 1 0 4 0)) with geometry := some ⟨6, 4, 4⟩ };
      s.busy = true ∧ s.Provisioned ∧ (∃ k, (program .put s).resume [] = .ask (.read 0 0 0 4) k)) ∧
    (let s := { putState 0 (start .put (ops 5 2 2 3)) with answers := List.replicate 5 .ok ++ .fail .io :: [.ok] };
      s.Started ∧ s.params.putParityMode = .recompute ∧ transferError s = none ∧ s.StoreCovers ∧
        s.answers = List.replicate (s.n - 1) .ok ++ .fail .io :: [.ok] ∧ Holds s (s.u 3) (s.u 2) (fun _ => 9#8) ∧
        ¬(5 = pDisk s 1)) := by
  unfold StoreFails Untouched InRange Holds
  exact ⟨⟨rfl, ⟨_, rfl⟩, rfl, by decide +kernel⟩, ⟨rfl, ⟨_, rfl⟩, rfl, by decide +kernel, by decide⟩,
    ⟨rfl, by decide, ⟨_, rfl⟩⟩, by decide +kernel⟩

/-- A command right after its accept, after INIT 6, 4, 16. -/
def six (i : Instr) (o : Vector Word 8) : State := geom 6 4 16 (start i o)

/-- V1 to V15: each check of R310 in turn. -/
theorem witness_RecoveryErrors :
    recoveryNeed .recSingleData ≠ none ∧ (start .recSingleData (ops 1 1 0)).Started ∧
    recoveryError .recSingleData (start .recSingleData (ops 1 1 0)) = some (.layout, noContext, noContext) ∧
    recoveryError .recDoubleData (six .recDoubleData (ops 1 1 0)) = some (.recoveryPrecondition, noContext, noContext) ∧
    recoveryError .recSingleData (six .recSingleData (ops 1 6 0)) = some (.layout, 6#32, noContext) ∧
    recoveryError .recDoubleData (six .recDoubleData (ops 2 1 0 9 0)) = some (.layout, 9#32, noContext) ∧
    recoveryError .recDoubleData (six .recDoubleData (ops 2 1 5 2 6)) = some (.recoveryPrecondition, 2#32, 6#32) ∧
    recoveryError .recDoubleData (six .recDoubleData (ops 2 1 0 1 0)) = some (.recoveryPrecondition, 1#32, 0#32) ∧
    recoveryError .recSingleData (six .recSingleData (ops 1 1 4)) = some (.layout, 1#32, 4#32) ∧
    recoveryError .recSingleData (six .recSingleData (ops 1 4 0)) = some (.recoveryPrecondition, 4#32, 0#32) ∧
    recoveryError .recSingleParity (six .recSingleParity (ops 1 0 0)) = some (.recoveryPrecondition, 0#32, 0#32) ∧
    recoveryError .recDoubleData (six .recDoubleData (ops 2 1 0 4 0)) = some (.recoveryPrecondition, 4#32, 0#32) ∧
    recoveryError .recDoubleParity (six .recDoubleParity (ops 2 4 0 0 0)) = some (.recoveryPrecondition, 0#32, 0#32) ∧
    recoveryError .recDataAndParity (six .recDataAndParity (ops 2 0 0 1 0)) = some (.recoveryPrecondition, 1#32, 0#32) ∧
    recoveryError .recDataAndParity (six .recDataAndParity (ops 2 4 0 5 0)) = some (.recoveryPrecondition, 5#32, 0#32) := by
  and_intros <;> decide +kernel

theorem witness_RecSingleDataResult : let s := good 5 (stripe1 (start .recSingleData (ops 1 2 1)))
    s.Started ∧ recoveryError .recSingleData s = none ∧ s.StoreCovers ∧ s.AnswersOk (s.n - 1) := by decide +kernel

/-- The P block of the stripe, and its Q block. -/
theorem witness_RecSingleParityResult :
    (let s := good 5 (stripe1 (start .recSingleParity (ops 1 3 1)));
      s.Started ∧ recoveryError .recSingleParity s = none ∧ s.StoreCovers ∧ s.AnswersOk (s.n - 1) ∧ s.u 1 = pDisk s (s.u 2)) ∧
    (let s := good 5 (stripe1 (start .recSingleParity (ops 1 4 1)));
      s.Started ∧ recoveryError .recSingleParity s = none ∧ s.StoreCovers ∧ s.AnswersOk (s.n - 1) ∧
        s.u 1 = qDisk s (s.u 2)) := by decide +kernel

theorem witness_RecDoubleDataResult : let s := good 6 (stripe1 (start .recDoubleData (ops 2 5 1 1 1)))
    s.CfgLegal ∧ s.Started ∧ recoveryError .recDoubleData s = none ∧ s.StoreCovers ∧ s.AnswersOk s.n := by decide +kernel

theorem witness_RecDoubleParityResult : let s := good 6 (stripe1 (start .recDoubleParity (ops 2 4 1 3 1)))
    s.Started ∧ recoveryError .recDoubleParity s = none ∧ s.StoreCovers ∧ s.AnswersOk s.n := by decide +kernel

/-- Q lost and listed first; P lost and listed second. -/
theorem witness_RecDataAndParityResult :
    (let s := good 6 (stripe1 (start .recDataAndParity (ops 2 4 1 0 1)));
      s.Started ∧ recoveryError .recDataAndParity s = none ∧ s.StoreCovers ∧ s.AnswersOk s.n ∧
        isParity s.n (s.u 1) (s.u 2) = true ∧ s.u 1 = qDisk s (s.u 2)) ∧
    (let s := good 6 (stripe1 (start .recDataAndParity (ops 2 5 1 3 1)));
      s.Started ∧ recoveryError .recDataAndParity s = none ∧ s.StoreCovers ∧ s.AnswersOk s.n ∧
        isParity s.n (s.u 1) (s.u 2) = false ∧ s.u 3 = pDisk s (s.u 2)) := by decide +kernel

/-- Two blocks of a consistent stripe lost, and recovered. -/
theorem witness_RecoveryRestoresStripe :
    let before := good 6 (stripe1 (start .recDoubleData (ops 2 5 1 1 1)))
    let s := lay 1 1 0x5A (lay 5 1 0x5A before)
    recoveryNeed .recDoubleData ≠ none ∧ s.CfgLegal ∧ before.InvariantP (s.u 2) ∧ before.InvariantQ (s.u 2) ∧
      (∀ d < s.n, d ∉ lostDisks .recDoubleData s → s.diskBytes d (s.u 2) 0 s.bs = before.diskBytes d (s.u 2) 0 s.bs) ∧
      s.Started ∧ passed (exec .recDoubleData s) = true ∧ 5 < s.n := by decide +kernel

/-- Not configured; all stripes consistent; the last stripe the first that is not. -/
theorem witness_CheckFindsFirstBadStripe :
    (let s := start .check (ops); s.Started ∧ s.n < 3) ∧
    (let s := good 24 (stripe1 (start .check (ops)));
      s.Started ∧ 3 ≤ s.n ∧ s.StoreCovers ∧ s.Consistent ∧ s.AnswersOk (s.nb * s.n)) ∧
    (let s := good 24 (lay 0 3 0x01 (stripe1 (start .check (ops))));
      s.Started ∧ 3 ≤ s.n ∧ s.StoreCovers ∧ 3 < s.nb ∧ (∀ st < 3, s.InvariantP st ∧ s.InvariantQ st) ∧
        ¬(s.InvariantP 3 ∧ s.InvariantQ 3) ∧ s.AnswersOk ((3 + 1) * s.n)) := by unfold State.Consistent; decide +kernel

theorem witness_StoreStaysConsistent : let s := putState 7 (start .put (ops 5 2 2 3))
    Instr.put ≠ .putraw ∧ Instr.put ≠ .init ∧ s.CfgLegal ∧ s.Consistent ∧ s.Started ∧ passed (exec .put s) = true := by
  unfold State.Consistent; decide +kernel

/-- A command that writes nothing, and the byte just behind the bytes a PUTRAW writes. -/
theorem witness_DiskFrame :
    (let s := good 24 (stripe1 (start .check (ops))); goesOn (exec .check s) = true ∧ writeRanges .check s = []) ∧
    (let s := good 1 (load 3 [9, 9] (stripe1 (start .putraw (ops 5 0 2 3))));
      goesOn (exec .putraw s) = true ∧ writeRanges .putraw s = [(5, 1, 0, 2)] ∧ ¬(5 = 5 ∧ 1 = 1 ∧ 0 ≤ 2 ∧ 2 < 0 + 2)) := by
  decide +kernel

/-- A command that fails, and an illegal word. -/
theorem witness_ErrorKindsOfEachCommand :
    (let s := start .gfInv (ops 0); goesOn (exec .gfInv s) = true ∧ (after (exec .gfInv s)).seq = .idle ∧
      (after (exec .gfInv s)).err = true) ∧
    (let s := State.reset.withFetchWord 32 0x131; s.agenda = [] ∧ s.busy = true ∧ decodeTableWord 32 0x131 = none ∧
      goesOn (step s) = true ∧ (after (step s)).seq = .idle) := by decide +kernel

theorem witness_IllegalWordCompletes : let s := State.reset.withFetchWord 32 0x131
    s.agenda = [] ∧ s.Started ∧ decode s.cmd = .error .reservedBits := ⟨rfl, rfl, rfl⟩

/-- No event, a poll, a wait for an IRQ that is low, a placed word, and a run that has ended. -/
theorem witness_StepRunsTheCommand :
    ((start .put (ops)).busy = true ∧ decode (start .put (ops)).cmd = .ok .put ∧ (start .put (ops)).agenda = []) ∧
    (host [.poll] (start .put (ops))).agenda = .poll :: [] ∧
    ((host [.waitIrq] (start .put (ops))).agenda = .waitIrq :: [] ∧ (host [.waitIrq] (start .put (ops))).irq = false) ∧
    decodeTableWord 32 0x31 = some .put ∧ (after (exec .gfMul (start .gfMul (ops 2 3)))).runEnded = true :=
  ⟨⟨rfl, rfl, rfl⟩, rfl, ⟨rfl, rfl⟩, rfl, by decide +kernel⟩

theorem witness_EncodeDecodeAgree : decode 0x00000048#32 = .ok .check ∧
    (0x80000048#32 : Word).extractLsb' 8 24 ≠ 0#24 ∧ (0x00000049#32 : Word).extractLsb' 8 24 = 0#24 ∧
    Word.wellFormed 0x00000049#32 = false := ⟨rfl, by decide, by decide, by decide⟩

/-- A reset with a write outstanding, and a byte just behind the write's target. -/
theorem witness_ResetAbandonsCommand : let r : Request := .write 4 0 0 [1, 1, 1, 1]
    let s := host [.reset] { start .put (ops 1 0 4 0) with seq := .exec [] (.waiting r) }
    s.agenda = .reset :: [] ∧ s.outstanding = some r ∧ r.isWrite = true ∧ r.block < 2 ^ 32 ∧ r.off + r.len ≤ 2 ^ 32 ∧
      ¬(4 = 4 ∧ 0 = 0 ∧ 0 ≤ 4 ∧ 4 < 0 + 4) := by decide

theorem witness_CmdWriteAcceptsOrDrops :
    (let s := host [.write 0x28#32 1#32] State.reset; isAligned 0x28#32 = true ∧ s.portOffset 0x28#32 = 0x028 ∧ s.busy = false) ∧
    (let s := host [.write 0x28#32 1#32] (start .put (ops)); isAligned 0x28#32 = true ∧ s.portOffset 0x28#32 = 0x028 ∧
      s.busy = true) := by decide

/-- The first and the last word of the window; IDLE and BUSY; written and unwritten bytes; the byte behind the word. -/
theorem witness_WindowAccess :
    (let s := State.reset; isAligned 0x10000#32 = true ∧ s.inWindow (s.portOffset 0x10000#32) = true ∧ s.busy = false) ∧
    (let s := State.reset; isAligned 0x1FFFC#32 = true ∧ s.inWindow (s.portOffset 0x1FFFC#32) = true ∧
      s.windowBuffer 0x1FFFC = 15 ∧ s.windowIndex 0x1FFFC = 4092 ∧ s.params.Legal) ∧
    (let s := start .put (ops); s.inWindow (s.portOffset 0x1FFFC#32) = true ∧ s.busy = true) ∧
    (let s := bufs State.reset; ∀ j < 4, s.bufByte 3 j = some 0x20#8) ∧
    (let s := bufs State.reset; ∃ j < 4, s.bufByte 3 (4 + j) = none) ∧ ¬(3 = 3 ∧ 0 ≤ 4 ∧ 4 < 0 + 4) := by decide +kernel

/-- CTRL, STATUS, the first and the last ARG, a read-only register, a reserved offset, and the first address above the
window. -/
theorem witness_HostRegisterWrites : let s := start .put (ops)
    let fits := fun a : Word => isAligned a = true ∧ s.inWindow (s.portOffset a) = false ∧ s.portOffset a ≠ 0x028
    fits 0x20#32 ∧ fits 0x24#32 ∧ fits 0x40#32 ∧ fits 0x5C#32 ∧ fits 0x60#32 ∧ fits 0x80#32 ∧ fits 0x20000#32 := by
  decide

theorem witness_HostReadsHaveNoSideEffects :
    let s := host [.read 0x24#32] (start .put (ops)); s.agenda = .read 0x24#32 :: [] ∧ goesOn (step s) = true := by
  decide +kernel

/-- H16. -/
theorem witness_MisalignedAccessRefused : (0x26#32 : Word).extractLsb' 0 2 ≠ 0#2 ∧
    (host [.read 0x26#32] State.reset).agenda = .read 0x26#32 :: [] ∧
    (host [.write 0x26#32 0#32] State.reset).agenda = .write 0x26#32 0#32 :: [] := by decide

/-- The last register, and the offset just behind it; the end of a run; a run with an access to come, and one in EXEC. -/
theorem witness_RegisterMapReads : let s := host [.read 0x78#32] State.reset
    s.params.Legal ∧ isAligned 0x78#32 = true ∧ (s.portOffset 0x78#32, s.errStripe) ∈ registerTable s ∧
      isAligned 0x7C#32 = true ∧ s.inWindow (s.portOffset 0x7C#32) = false ∧
      (∀ e ∈ registerTable s, e.1 ≠ s.portOffset 0x7C#32) ∧ State.reset.agenda = [] ∧ State.reset.busy = false ∧
      s.agenda ≠ [] ∧ (start .put (ops)).busy = true := by decide +kernel

/-- A success, an error, and a command that is never answered. -/
theorem witness_CommandRegisterFrame :
    passed (exec .gfMul (start .gfMul (ops 2 3))) = true ∧
    (goesOn (exec .gfInv (start .gfInv (ops 0))) = true ∧ (after (exec .gfInv (start .gfInv (ops 0)))).err = true) ∧
    (let s := { geom 6 4 4 (start .get (ops 1 0 4 3)) with answers := [.silent] };
      goesOn (exec .get s) = true ∧ (after (exec .get s)).seq ≠ .idle) := by decide +kernel

/-- The command of `witness_PhasesAgreeWithRun`: a GET whose one read is outstanding. -/
def waitingGet : State :=
  { good 1 (geom 6 4 4 (start .get (ops 1 0 4 3))) with seq := .exec [] (.waiting (.read 1 0 0 4)) }

/-- A phase that leaves the command in EXEC, with the port waiting; a phase that completes it; a phase that stops it. -/
theorem witness_PhasesAgreeWithRun :
    (waitingGet.busy = true ∧ waitingGet.PortConsistent ∧ decode waitingGet.cmd = .ok .get ∧
      goesOn (corePhase waitingGet) = true ∧ (after (corePhase waitingGet)).busy = true) ∧
    (let s := start .gfMul (ops 2 3); s.busy = true ∧ s.PortConsistent ∧ decode s.cmd = .ok .gfMul ∧
      goesOn (corePhase s) = true ∧ (after (corePhase s)).busy = false) ∧
    (let s := start .blkXor (ops 6 0 1 4); s.busy = true ∧ s.PortConsistent ∧ decode s.cmd = .ok .blkXor ∧
      faultOf (corePhase s) = some .unwrittenBuffer) := by
  refine ⟨⟨rfl, ?_, rfl, by decide +kernel, by decide +kernel⟩, ⟨rfl, ?_, rfl, by decide +kernel, by decide +kernel⟩,
    ⟨rfl, ?_, rfl, by decide +kernel⟩⟩
  · intro h r hs
    cases hs
    exact ⟨_, rfl⟩
  · intro h r hs
    cases hs
  · intro h r hs
    cases hs

/-- A command with a request outstanding meets the invariant, and a step of it goes on. -/
theorem witness_InvariantKept : waitingGet.Inv ∧ goesOn (step waitingGet) = true := by
  refine ⟨⟨by decide, by decide, by decide, rfl, ?_⟩, by decide +kernel⟩
  intro h r hs
  cases hs
  exact ⟨_, rfl⟩

/-- A GET whose read is never answered; an INCREMENTAL PUT whose third read is not; and the state a GET is then in, with each
event. -/
theorem witness_StalledCommandWaits :
    (let s := { geom 6 4 4 (start .get (ops 1 0 4 3)) with answers := [.silent] };
      s.isStalled = false ∧ (∃ k, (program .get s).resume s.history = .ask (.read 1 0 0 4) k) ∧
        s.answers = .silent :: []) ∧
    (let s := { incremental (putState 0 (start .put (ops 5 0 2 3))) with
        seq := .exec [.ok [1, 1], .ok [1, 1]] .quiet, answers := [.silent] };
      s.isStalled = false ∧ (∃ k, (program .put s).resume s.history = .ask (.read 4 1 0 2) k) ∧
        s.answers = .silent :: []) ∧
    (let s := { geom 6 4 4 (start .get (ops 1 0 4 3)) with seq := .exec [] (.stalled (.read 1 0 0 4)) };
      s.seq = .exec [] (.stalled (.read 1 0 0 4)) ∧ s.agenda = [] ∧ (host [.poll] s).agenda = .poll :: [] ∧
        goesOn (step (host [.poll] s)) = true ∧ goesOn (step (host [.reset] s)) = true) :=
  ⟨⟨rfl, ⟨_, rfl⟩, rfl⟩, ⟨rfl, ⟨_, rfl⟩, rfl⟩, ⟨rfl, rfl, rfl, by decide +kernel, by decide +kernel⟩⟩

theorem witness_IrqRisesAndClears :
    passed (exec .gfMul (start .gfMul (ops 2 3))) = true ∧ (2#32 : Word).getLsbD 1 = true ∧ (0#32 : Word).getLsbD 0 = false ∧
      (1#32 : Word).getLsbD 0 = true := by decide +kernel

end Sys2Proof.Tests
end

/-! ## What the completions of a command do to CFG (R361, R50 to R52)

Only INIT stages a CFG write, and what it stages passed its own checks. -/

namespace Sys2Proof.Machine

variable {s t u : State} {E : Effects → Prop} {R : ErrorKind → Word → Word → Prop} {W : Request → Prop}

/-! ### The checks that commands share, under `Prog.All` -/

/-- What R360 leaves to a transfer that passed its checks: a disk, a buffer, a stripe and a byte range inside CFG. -/
theorem all_transferChecks {o : OperandsXfer} {k : Nat → Nat → Prog}
    (h : ∀ stripe off, 3 ≤ s.n → o.d < s.n → o.buf < s.params.nbuf → stripe < s.nb → off + o.len ≤ s.bs →
      (k stripe off).All E R W)
    (hr : ∀ kind d b, R kind d b) : (transferChecks s o k).All E R W := by
  refine all_whenConfigured (fun hn => all_whenDisk (fun hd => ?_) fun _ => hr _ _ _) fun _ => hr _ _ _
  split
  · exact hr _ _ _
  · split
    · exact hr _ _ _
    · dsimp only
      split
      · exact hr _ _ _
      · split
        · exact hr _ _ _
        · exact h _ _ hn hd (by omega) (by omega) (by omega)

/-- What the checks 1 to 6 of R310 leave to a case that needs one block. -/
theorem all_recoveryChecksOne {o : OperandsRec} {k : Prog}
    (h : 3 ≤ s.n → o.d0 < s.n → o.s0 < s.nb → k.All E R W)
    (hr : ∀ kind d b, R kind d b) : (recoveryChecksOne s o k).All E R W := by
  refine all_whenConfigured (fun hn => ?_) fun _ => hr _ _ _
  split
  · exact hr _ _ _
  · exact all_whenDisk (fun hd => all_whenStripe (h hn hd) fun _ => hr _ _ _) fun _ => hr _ _ _

/-- What the checks 1 to 6 of R310 leave to a case that needs two blocks. -/
theorem all_recoveryChecksTwo {o : OperandsRec} {k : Prog}
    (h : 3 ≤ s.n → o.d0 < s.n → o.d1 < s.n → o.d1 ≠ o.d0 → o.s0 < s.nb → k.All E R W)
    (hr : ∀ kind d b, R kind d b) : (recoveryChecksTwo s o k).All E R W := by
  refine all_whenConfigured (fun hn => ?_) fun _ => hr _ _ _
  split
  · exact hr _ _ _
  · refine all_whenDisk (fun h0 => all_whenDisk (fun h1 => ?_) fun _ => hr _ _ _) fun _ => hr _ _ _
    split
    · exact hr _ _ _
    · split
      · exact hr _ _ _
      · next hne => exact all_whenStripe (h hn h0 h1 hne) fun _ => hr _ _ _

/-! ### The commands other than INIT -/

/-- Every way the program can finish meets `E`, whatever it asks and raises. -/
abbrev Prog.Finishes (E : Effects → Prop) (p : Prog) : Prop := p.All E (fun _ _ _ => True) (fun _ => True)

theorem Prog.finishes_ite {c : Prop} [Decidable c] {p q : Prog} (hp : p.Finishes E) (hq : q.Finishes E) :
    (if c then p else q).Finishes E := by
  split <;> assumption

/-- The completion leaves CFG as it is. -/
abbrev Effects.KeepsCfg (e : Effects) : Prop := e.cfg = none

theorem checkFrom_keepsCfg (n bs left stripe : Nat) : (checkFrom n bs left stripe).Finishes Effects.KeepsCfg := by
  induction left generalizing stripe with
  | zero => exact rfl
  | succ left ih =>
    exact all_readData _ (fun _ _ => trivial) fun _ _ => all_bsRead trivial fun _ => all_bsRead trivial fun _ =>
      Prog.finishes_ite rfl (ih (stripe + 1))

theorem dataAndParityWrites_keepsCfg (dd pp stripe : Nat) (r np : Block) :
    (dataAndParityWrites dd pp stripe r np).Finishes Effects.KeepsCfg :=
  all_bsWrite trivial (all_bsWrite trivial rfl)

theorem putProgram_keepsCfg (s : State) : (putProgram s).Finishes Effects.KeepsCfg := by
  unfold putProgram
  refine all_transferChecks (fun stripe off _ _ _ _ _ => ?_) fun _ _ _ => trivial
  split
  · exact all_readData _ (fun _ _ => trivial) fun _ _ => all_withBuffer fun _ _ =>
      all_bsWrite trivial <| all_bsWrite trivial <| all_bsWrite trivial rfl
  · exact all_bsRead trivial fun _ => all_bsRead trivial fun _ => all_bsRead trivial fun _ => all_withBuffer fun _ _ =>
      all_bsWrite trivial <| all_bsWrite trivial <| all_bsWrite trivial rfl

/-- No command but INIT writes CFG (R50, R51, R52). -/
theorem program_keepsCfg {i : Instr} (hi : i ≠ .init) (s : State) : (program i s).Finishes Effects.KeepsCfg := by
  cases i with
  | gfMul => exact rfl
  | gfPow => exact rfl
  | gfInv =>
    simp only [program, gfInvProgram]
    split
    · trivial
    · exact rfl
  | gfSolve2 =>
    simp only [program, gfSolve2Program]
    split
    · trivial
    · split
      · trivial
      · exact rfl
  | blkXor =>
    exact all_blockChecks (fun _ => all_withBuffer fun _ _ => all_withBuffer fun _ _ => rfl) fun _ => trivial
  | blkScale => exact all_blockChecks (fun _ => all_withBuffer fun _ _ => rfl) fun _ => trivial
  | parComputeP => exact all_blockChecks (fun _ => all_withBuffers _ _ fun _ _ => rfl) fun _ => trivial
  | parComputeQ => exact all_blockChecks (fun _ => all_withBuffers _ _ fun _ _ => rfl) fun _ => trivial
  | parUpdateP =>
    exact all_blockChecks (fun _ => all_withBuffer fun _ _ => all_withBuffer fun _ _ => all_withBuffer fun _ _ => rfl)
      fun _ => trivial
  | parUpdateQ =>
    exact all_blockChecks (fun _ => all_withBuffer fun _ _ => all_withBuffer fun _ _ => all_withBuffer fun _ _ => rfl)
      fun _ => trivial
  | layPdiskP =>
    exact all_whenConfigured (fun _ => all_whenStripe (fun _ => rfl) fun _ => trivial) fun _ => trivial
  | layPdiskQ =>
    exact all_whenConfigured (fun _ => all_whenStripe (fun _ => rfl) fun _ => trivial) fun _ => trivial
  | layIspar =>
    exact all_whenConfigured (fun _ => all_whenDisk (fun _ => all_whenStripe (fun _ => Prog.finishes_ite rfl rfl)
      fun _ => trivial) fun _ => trivial) fun _ => trivial
  | layResolve =>
    exact all_whenConfigured (fun _ => all_whenDisk (fun _ => Prog.finishes_ite trivial rfl) fun _ => trivial)
      fun _ => trivial
  | init => exact absurd rfl hi
  | put => exact putProgram_keepsCfg s
  | putraw =>
    unfold program putrawProgram
    exact all_transferChecks (fun _ _ _ _ _ _ _ => all_withBuffer fun _ _ => all_bsWrite trivial rfl)
      fun _ _ _ => trivial
  | get =>
    unfold program getProgram
    exact all_transferChecks (fun _ _ _ _ _ _ _ => all_bsRead trivial fun _ => rfl) fun _ _ _ => trivial
  | recSingleData =>
    exact all_recoveryChecksOne (fun _ _ _ => all_whenRole (fun _ => all_readData _ (fun _ _ => trivial) fun _ _ =>
      all_bsRead trivial fun _ => all_bsWrite trivial rfl) fun _ => trivial) fun _ _ _ => trivial
  | recSingleParity =>
    exact all_recoveryChecksOne (fun _ _ _ => all_whenRole (fun _ => all_readData _ (fun _ _ => trivial) fun _ _ =>
      all_bsWrite trivial rfl) fun _ => trivial) fun _ _ _ => trivial
  | recDoubleData =>
    refine all_recoveryChecksTwo (fun _ _ _ _ _ => all_whenRole (fun _ => all_whenRole (fun _ =>
      all_readData _ (fun _ _ => trivial) fun _ _ => all_bsRead trivial fun _ => all_bsRead trivial fun _ => ?_)
      fun _ => trivial) fun _ => trivial) fun _ _ _ => trivial
    split
    · trivial
    · exact all_bsWrite trivial (all_bsWrite trivial rfl)
  | recDoubleParity =>
    exact all_recoveryChecksTwo (fun _ _ _ _ _ => all_whenRole (fun _ => all_whenRole (fun _ =>
      all_readData _ (fun _ _ => trivial) fun _ _ => all_bsWrite trivial (all_bsWrite trivial rfl))
      fun _ => trivial) fun _ => trivial) fun _ _ _ => trivial
  | recDataAndParity =>
    exact all_recoveryChecksTwo (fun _ _ _ _ _ => all_whenRole (fun _ =>
      all_readData _ (fun _ _ => trivial) fun _ _ => Prog.finishes_ite
        (all_bsRead trivial fun _ => dataAndParityWrites_keepsCfg _ _ _ _ _)
        (all_bsRead trivial fun _ => dataAndParityWrites_keepsCfg _ _ _ _ _)) fun _ => trivial) fun _ _ _ => trivial
  | check => exact all_whenConfigured (fun _ => checkFrom_keepsCfg _ _ _ _) fun _ => trivial

/-! ### Every command -/

/-- Where the completion writes CFG, it writes a geometry in the ranges of R361. -/
def Effects.CfgLegal (p : Params) (e : Effects) : Prop :=
  ∀ n nb bs, e.cfg = some (n, nb, bs) →
    3 ≤ n.toNat ∧ n.toNat ≤ maxDisks ∧ 1 ≤ nb.toNat ∧ 1 ≤ bs.toNat ∧ bs.toNat ≤ p.maxBsize

/-- A word operand read as a number and written back is the number. -/
theorem wordOf_u_toNat (s : State) (i : Fin 8) : (wordOf (s.u i)).toNat = s.u i := by
  simp [wordOf, State.u]

/-- INIT stages only what passed its checks (R361). -/
theorem initProgram_cfgLegal (s : State) : (initProgram s).Finishes (Effects.CfgLegal s.params) := by
  unfold initProgram
  dsimp only
  split
  · trivial
  · split
    · trivial
    · next hn hb =>
      rintro n nb bs ⟨⟩
      simp only [State.operandsInit] at hn hb
      simp only [State.operandsInit, wordOf_u_toNat]
      omega

theorem program_cfgLegal (i : Instr) (s : State) : (program i s).Finishes (Effects.CfgLegal s.params) := by
  by_cases hi : i = .init
  · subst hi
    exact initProgram_cfgLegal s
  · refine (program_keepsCfg hi s).mono (fun e he n nb bs hc => ?_) (fun _ _ _ => id) fun _ => id
    rw [he] at hc
    cases hc

theorem commandProgram_cfgLegal (s : State) : s.commandProgram.Finishes (Effects.CfgLegal s.params) := by
  unfold State.commandProgram
  split
  · exact program_cfgLegal _ s
  · trivial

end Sys2Proof.Machine

/-! ## The invariant of the machine, step by step -/

namespace Sys2Proof.Machine

variable {s t u : State}

/-- The invariant but for the port: the build, CFG, the memories and the error flag. -/
def State.RegistersOk (s : State) : Prop :=
  s.params.Legal ∧ s.CfgLegal ∧ s.Canonical ∧ s.err = s.errcode.isSome

theorem State.inv_iff : s.Inv ↔ s.RegistersOk ∧ s.PortConsistent := by
  simp only [State.Inv, State.RegistersOk, and_assoc]

/-! ### The port (R110) -/

/-- A port that does not wait is consistent. -/
theorem portConsistent_of_not_waiting (h : ∀ hist r, s.seq ≠ .exec hist (.waiting r)) : s.PortConsistent :=
  fun hist r hs => absurd hs (h hist r)

theorem portConsistent_of_not_busy (h : s.busy = false) : s.PortConsistent :=
  portConsistent_of_not_waiting fun hist r hs => by simp [State.busy, hs] at h

/-- After a response, or with none to come, the port does not wait. -/
theorem receive_portConsistent (s : State) (r : Request) : (s.receive r).1.PortConsistent := by
  refine portConsistent_of_not_waiting fun hist r' => ?_
  rw [s.receive_seq r]
  cases (s.receive r).2 <;> simp [advance]

/-! ### What the core does to the registers -/

/-- A BlockStore request touches the disk alone, and keeps it canonical. -/
theorem State.SameCore.registersOk (hu : s.SameCore u)
    (hd : Memory.wf diskUnlisted s.disk = true → Memory.wf diskUnlisted u.disk = true)
    (h : s.RegistersOk) : u.RegistersOk := by
  obtain ⟨hp, hc, ⟨hbuf, hdisk⟩, he⟩ := h
  have hd' := hd hdisk
  rw [hu]
  exact ⟨hp, hc, ⟨hbuf, hd'⟩, he⟩

theorem receive_registersOk (h : s.RegistersOk) (r : Request) : (s.receive r).1.RegistersOk :=
  (s.receive_same r).registersOk (s.receive_wf r) h

/-- The successful completion (R75) of a command whose CFG write is legal. -/
theorem complete_registersOk (h : s.RegistersOk) {e : Effects} (he : e.CfgLegal s.params) :
    (s.complete e).RegistersOk := by
  obtain ⟨hp, hc, ⟨hbuf, hdisk⟩, -⟩ := h
  obtain ⟨res, buf, cfg⟩ := e
  refine ⟨hp, ?_, ⟨?_, hdisk⟩, rfl⟩
  · cases cfg with
    | none => exact hc
    | some c => exact .inr (he _ _ _ rfl)
  · cases buf with
    | none => exact hbuf
    | some w => exact Memory.wf_writeBytes _ _ _ _ hbuf

/-- The completion with error (R76). -/
theorem completeError_registersOk (h : s.RegistersOk) (kind : ErrorKind) (d b : Word) :
    (s.completeError kind d b).RegistersOk := by
  obtain ⟨hp, hc, hm, -⟩ := h
  exact ⟨hp, hc, hm, rfl⟩

/-! ### What the core does to the invariant -/

theorem complete_inv (h : s.RegistersOk) {e : Effects} (he : e.CfgLegal s.params) : (s.complete e).Inv :=
  State.inv_iff.2 ⟨complete_registersOk h he, portConsistent_of_not_busy rfl⟩

theorem completeError_inv (h : s.RegistersOk) (kind : ErrorKind) (d b : Word) : (s.completeError kind d b).Inv :=
  State.inv_iff.2 ⟨completeError_registersOk h kind d b, portConsistent_of_not_busy rfl⟩

/-- The core's whole turn keeps the invariant. -/
theorem runCommand_inv (h : s.Inv) (hr : runCommand s.commandProgram s = .next t) : t.Inv := by
  obtain ⟨hs, -⟩ := State.inv_iff.1 h
  obtain ⟨u, hu, -, hd, hend⟩ := runCommand_spec (commandProgram_cfgLegal s) hr
  have hok : u.RegistersOk := hu.registersOk hd hs
  rcases hend with ⟨e, he, rfl⟩ | ⟨k, d, b, -, rfl⟩ | ⟨rfl, hist, r, hq⟩
  · exact complete_inv hok (by rwa [hu.params])
  · exact completeError_inv hok k d b
  · exact State.inv_iff.2 ⟨hok, portConsistent_of_not_waiting fun _ _ hw => by simp [hq] at hw⟩

/-- One phase of a command keeps the invariant: a request that it issues is the program's next (R110). -/
theorem corePhase_inv (h : s.Inv) (hr : corePhase s = .next t) : t.Inv := by
  obtain ⟨hs, -⟩ := State.inv_iff.1 h
  rcases corePhase_spec hr with rfl | ⟨hist, r, -, rfl⟩ | ⟨hist, -, hend⟩
  · exact h
  · exact State.inv_iff.2 ⟨receive_registersOk hs r, receive_portConsistent s r⟩
  · rcases hend with ⟨e, he, rfl⟩ | ⟨k, d, b, -, rfl⟩ | ⟨r, k, hk, rfl⟩
    · have hall := (commandProgram_cfgLegal s).resume hist
      rw [he] at hall
      exact complete_inv hs hall
    · exact completeError_inv hs k d b
    · refine State.inv_iff.2 ⟨hs, fun hist' r' hw => ?_⟩
      cases hw
      exact ⟨k, by rw [(s.seq_same _).commandProgram, hk]⟩

/-! ### What the host and a reset do to the invariant -/

/-- `t` differs from `s` at most in what the host may change while a command runs, in the word it reads, and in the inputs to
come (R56, R473). -/
def State.SameCommand (s t : State) : Prop :=
  t = { s with irqEn := t.irqEn, done := t.done, ovr := t.ovr, args := t.args, agenda := t.agenda, rdata := t.rdata,
               draws := t.draws }

theorem State.SameCommand.commandProgram (h : s.SameCommand t) : t.commandProgram = s.commandProgram := by
  have hi (i : Instr) : program i t = program i s := by
    rw [h]
    exact program_congr i rfl rfl rfl rfl rfl rfl
  have hc : t.cmd = s.cmd := by rw [h]
  simp only [State.commandProgram, hc, hi]

theorem State.SameCommand.inv (h : s.SameCommand t) (hs : s.Inv) : t.Inv := by
  obtain ⟨hr, hp⟩ := State.inv_iff.1 hs
  have hseq : t.seq = s.seq := by rw [h]
  refine State.inv_iff.2 ⟨by rw [h]; exact hr, fun hist r hw => ?_⟩
  rw [h.commandProgram]
  exact hp hist r (hseq ▸ hw)

theorem afterEvent_sameCommand (s : State) (rest : List Event) : s.SameCommand (s.afterEvent rest) := rfl

theorem hostRead_inv (h : s.Inv) {a : Word} (hr : hostRead s a = .next t) : t.Inv := by
  have hc : s.SameCommand t := by rw [hostRead_spec hr]; rfl
  exact hc.inv h

/-- An accept (R73) clears ERR with ERRCODE and leaves the port quiet. -/
theorem accept_inv (h : s.Inv) (w : Word) : (s.accept w).Inv := by
  obtain ⟨hp, hc, hm, -, -⟩ := h
  exact ⟨hp, hc, hm, rfl, portConsistent_of_not_waiting fun _ _ hw => by simp at hw⟩

/-- A window write while IDLE (R102) keeps BUF canonical. -/
theorem bufWith_inv (h : s.Inv) (hb : s.busy = false) (b i : Nat) (bytes : Block) :
    ({ s with buf := s.bufWith b i bytes } : State).Inv := by
  obtain ⟨hp, hc, ⟨hbuf, hdisk⟩, he, -⟩ := h
  exact ⟨hp, hc, ⟨Memory.wf_writeBytes _ _ _ _ hbuf, hdisk⟩, he, portConsistent_of_not_busy hb⟩

theorem hostWrite_inv (h : s.Inv) {a v : Word} (hw : hostWrite s a v = .next t) : t.Inv := by
  rcases hostWrite_spec hw with rfl | rfl | rfl | ⟨-, rfl⟩ | ⟨-, rfl⟩ | ⟨i, rfl⟩ | ⟨hb, b, i, rfl⟩
  · exact h
  · exact State.SameCommand.inv (s := s) rfl h
  · exact State.SameCommand.inv (s := s) rfl h
  · exact accept_inv h v
  · exact State.SameCommand.inv (s := s) rfl h
  · exact State.SameCommand.inv (s := s) rfl h
  · exact bufWith_inv h hb b i _

/-- A reset (R450 to R453) keeps the build, and a write it cuts off keeps DISK canonical. -/
theorem coreReset_inv (h : s.Inv) : (coreReset s).Inv := by
  obtain ⟨hp, -, ⟨-, hdisk⟩, -, -⟩ := h
  have hidle : (coreReset s).PortConsistent := portConsistent_of_not_busy rfl
  refine ⟨?_, .inl ⟨rfl, rfl, rfl⟩, ⟨rfl, ?_⟩, rfl, hidle⟩
  · unfold coreReset
    cases s.outstanding with
    | none => exact hp
    | some r => exact (s.spoil_same r).params ▸ hp
  · unfold coreReset
    cases s.outstanding with
    | none => exact hdisk
    | some r => exact s.spoil_wf r hdisk

/-- Settles O57, by the cases of a step: the core's turn, a host access, the end of a wait, a phase, a reset. -/
theorem invariantKept : Obligations.InvariantKept := by
  intro s t h hstep
  rcases step_spec hstep with ⟨-, hr⟩ | rfl | ⟨e, rest, -, hev⟩
  · exact runCommand_inv h hr
  · exact h
  · have ha : (s.afterEvent rest).Inv := (afterEvent_sameCommand s rest).inv h
    rcases hev with ⟨a, -, hr⟩ | ⟨a, v, -, hw⟩ | ⟨-, -, rfl⟩ | ⟨-, -, rfl⟩ | ⟨-, hc⟩ | ⟨-, rfl⟩
    · exact hostRead_inv ha hr
    · exact hostWrite_inv ha hw
    · exact State.SameCommand.inv (s := s) rfl h
    · exact ha
    · exact corePhase_inv ha hc
    · exact coreReset_inv ha

end Sys2Proof.Machine

/-! ## Changes of the state that a run does not see (R10) -/

namespace Sys2Proof.Machine

variable {f : State → State}

/-- A change of the state that every move of a running command commutes with: the two completions (R75, R76) and a BlockStore
request (R110), from the same place in the command. -/
structure Unseen (f : State → State) : Prop where
  seq : ∀ s, (f s).seq = s.seq
  complete : ∀ s e, (f s).complete e = f (s.complete e)
  completeError : ∀ s kind d b, (f s).completeError kind d b = f (s.completeError kind d b)
  receive : ∀ s r, (f s).receive r = (f (s.receive r).1, (s.receive r).2)

theorem Unseen.run_commutes (hf : Unseen f) (p : Prog) (s : State) : p.run (f s) = mapNext f (p.run s) := by
  induction p generalizing s with
  | done e => simp only [Prog.run, mapNext, hf.complete]
  | raise kind d b => simp only [Prog.run, mapNext, hf.completeError]
  | stop g => rfl
  | ask r k ih =>
    rw [Prog.run, Prog.run, hf.receive]
    rcases s.receive r with ⟨t, _ | bytes | kind⟩
    · rfl
    · exact ih bytes t
    · simp only [mapNext, hf.completeError]

theorem Unseen.runCommand_commutes (hf : Unseen f) (p : Prog) (s : State) :
    runCommand p (f s) = mapNext f (runCommand p s) := by
  have hstall : (f s).isStalled = s.isStalled := by simp only [State.isStalled, hf.seq]
  have hhist : (f s).history = s.history := by simp only [State.history, hf.seq]
  rw [runCommand, runCommand, hstall, hhist, hf.run_commutes]
  split <;> rfl

/-- A command runs to the same outcome where its program is the same as well. -/
theorem Unseen.exec_commutes (hf : Unseen f) {i : Instr} {s : State} (hp : program i (f s) = program i s) :
    exec i (f s) = mapNext f (exec i s) := by
  rw [exec_eq_runCommand, exec_eq_runCommand, hp, hf.runCommand_commutes]

/-! ### The timing parameters -/

/-- The values of the five timing parameters (R7, R10). -/
structure Timing where
  mulImpl : Bool
  mulLat : Nat
  invImpl : Bool
  invLat : Nat
  lanesLog2 : Nat

/-- The state of a build with these timing parameters. -/
def State.retimed (x : Timing) (s : State) : State :=
  { s with
    params := { s.params with
      mulImpl := x.mulImpl, mulLat := x.mulLat, invImpl := x.invImpl, invLat := x.invLat, lanesLog2 := x.lanesLog2 } }

theorem takeAnswer_retimed (x : Timing) (s : State) :
    (s.retimed x).takeAnswer = (s.takeAnswer.1, s.takeAnswer.2.retimed x) := by
  have ha : (s.retimed x).answers = s.answers := rfl
  unfold State.takeAnswer
  rw [ha]
  cases s.answers <;> rfl

theorem respond_retimed (x : Timing) (s : State) (r : Request) (a : Answer) :
    (s.retimed x).respond r a = ((s.respond r a).1.retimed x, (s.respond r a).2) := by
  have hv : (s.retimed x).verdict r a = s.verdict r a := rfl
  unfold State.respond
  rw [hv]
  cases s.verdict r a <;> cases r <;> rfl

/-- No move of a running command sees the timing parameters. -/
theorem unseen_retimed (x : Timing) : Unseen (State.retimed x) where
  seq _ := rfl
  complete _ _ := rfl
  completeError _ _ _ _ := rfl
  receive s r := by
    simp only [State.receive, takeAnswer_retimed, respond_retimed]
    rfl

theorem withBuffers_retimed (x : Timing) (s : State) (len count first : Nat) (k : List Block → Prog) :
    withBuffers (s.retimed x) len first count k = withBuffers s len first count k := by
  induction count generalizing first k with
  | zero => rfl
  | succ count ih => simp only [withBuffers, ih]; rfl

/-- A program reads NBUF, MAX_BSIZE and PUT_PARITY_MODE only of the build: where it does not run over a list of buffers, both
sides are the same by computation. -/
theorem program_retimed (x : Timing) (i : Instr) (s : State) : program i (s.retimed x) = program i s := by
  cases i
  case parComputeP => simp only [program, parComputePProgram, withBuffers_retimed]; rfl
  case parComputeQ => simp only [program, parComputeQProgram, withBuffers_retimed]; rfl
  all_goals rfl

/-- Settles O55: the timing parameters reach neither the program nor the run of it. -/
theorem timingParametersChangeNothing : Obligations.TimingParametersChangeNothing := by
  intro i s mulImpl invImpl mulLat invLat lanesLog2
  have hp := program_retimed ⟨mulImpl, mulLat, invImpl, invLat, lanesLog2⟩ i s
  exact ⟨hp, (unseen_retimed _).exec_commutes hp⟩

end Sys2Proof.Machine

/-! ## What a BlockStore request sees of the state (R105 to R110) -/

namespace Sys2Proof.Machine

variable {s t : State} {p : Prog} {i : Instr} {h : List Response} {r : Request} {k : Block → Prog}

/-- `t` with the BlockStore of `s` and its inputs. -/
def State.withStore (t s : State) : State :=
  { t with disk := s.disk, geometry := s.geometry, answers := s.answers, draws := s.draws }

theorem takeAnswer_withStore (t s : State) :
    (t.withStore s).takeAnswer = (s.takeAnswer.1, t.withStore s.takeAnswer.2) := by
  have ha : (t.withStore s).answers = s.answers := rfl
  unfold State.takeAnswer
  rw [ha]
  cases s.answers <;> rfl

theorem respond_withStore (t s : State) (r : Request) (a : Answer) :
    (t.withStore s).respond r a = (t.withStore (s.respond r a).1, (s.respond r a).2) := by
  have hv : (t.withStore s).verdict r a = s.verdict r a := rfl
  unfold State.respond
  rw [hv]
  cases s.verdict r a <;> cases r <;> rfl

/-- A request sees the store and its inputs, and of the core only the scratch that its response joins. -/
theorem receive_withStore (t s : State) (r : Request) :
    (t.withStore s).receive r =
      ({ t.withStore (s.receive r).1 with seq := advance t.history r (s.receive r).2 }, (s.receive r).2) := by
  simp only [State.receive, takeAnswer_withStore, respond_withStore]
  rfl

/-- The response to a request does not depend on whether it was issued in a phase of its own. -/
theorem receive_issued (hq : s.seq = .exec h .quiet) (r : Request) :
    ({ s with seq := .exec h (.waiting r) } : State).receive r = s.receive r := by
  have hh : s.history = h := by simp only [State.history, hq]
  have issued := receive_withStore { s with seq := .exec h (.waiting r) } s r
  have quiet := receive_withStore s s r
  rw [hh] at quiet
  exact issued.trans quiet.symm

/-! ## A command phase by phase (R68, R110, R116) -/

theorem runCommand_quiet (p : Prog) (hq : s.seq = .exec h .quiet) : runCommand p s = (p.resume h).run s := by
  simp [runCommand, State.isStalled, State.history, hq]

theorem runCommand_waiting (p : Prog) (hw : s.seq = .exec h (.waiting r)) : runCommand p s = (p.resume h).run s := by
  simp [runCommand, State.isStalled, State.history, hw]

theorem runCommand_stalled (p : Prog) (hs : s.seq = .exec h (.stalled r)) : runCommand p s = .next s := by
  simp [runCommand, State.isStalled, hs]

/-- Issuing the next request as a phase of its own leaves the outcome as it is. -/
theorem runCommand_issue (hq : s.seq = .exec h .quiet) (hp : p.resume h = .ask r k) :
    runCommand p { s with seq := .exec h (.waiting r) } = runCommand p s := by
  rw [runCommand_waiting p rfl, runCommand_quiet p hq, hp, Prog.run, Prog.run, receive_issued hq]

/-- Taking the answer to the outstanding request as a phase of its own leaves the outcome as it is. -/
theorem runCommand_receive (hw : s.seq = .exec h (.waiting r)) (hp : p.resume h = .ask r k) :
    runCommand p (s.receive r).1 = runCommand p s := by
  have hh : s.history = h := by simp only [State.history, hw]
  have hseq := s.receive_seq r
  rw [hh] at hseq
  rw [runCommand_waiting p hw, hp, Prog.run]
  rcases hr : s.receive r with ⟨t, _ | bytes | kind⟩
  all_goals rw [hr] at hseq
  · exact runCommand_stalled p hseq
  · rw [runCommand_quiet p hseq, Prog.resume_append, hp, Prog.resume, Prog.resume_nil]
  · rw [runCommand_quiet p hseq, Prog.resume_append, hp]
    rfl

theorem commandProgram_of_decode (hd : decode s.cmd = .ok i) : s.commandProgram = program i s := by
  simp only [State.commandProgram, hd]

theorem receive_busy (s : State) (r : Request) : (s.receive r).1.busy = true := by
  rw [State.busy, s.receive_seq]
  cases (s.receive r).2 <;> rfl

/-- A phase stops the model only where the command itself stops it. -/
theorem corePhase_fault {f : Fault} (hf : corePhase s = .fault f) :
    ∃ h, s.seq = .exec h .quiet ∧ s.commandProgram.resume h = .stop f := by
  unfold corePhase at hf
  split at hf
  case h_4 h hq =>
    refine ⟨h, hq, ?_⟩
    split at hf
    case h_3 g hg => cases hf; exact hg
    all_goals cases hf
  all_goals cases hf

/-- A phase that leaves the command in EXEC leaves its outcome as it is (R68). -/
theorem exec_corePhase_busy (hd : decode s.cmd = .ok i) (hc : s.PortConsistent) (ht : corePhase s = .next t)
    (hb : t.busy = true) : exec i t = exec i s ∧ t.PortConsistent := by
  have hp := commandProgram_of_decode hd
  rcases corePhase_spec ht with rfl | ⟨h, r, hw, rfl⟩ | ⟨h, hq, ⟨e, -, rfl⟩ | ⟨_, _, _, -, rfl⟩ | ⟨r, k, hk, rfl⟩⟩
  · exact ⟨rfl, hc⟩
  · obtain ⟨k, hk⟩ := hc h r hw
    refine ⟨?_, receive_portConsistent s r⟩
    rw [exec_eq_runCommand, exec_eq_runCommand, (s.receive_same r).program, runCommand_receive hw (hp ▸ hk)]
  · cases hb
  · cases hb
  · refine ⟨?_, fun h' r' hw => ?_⟩
    · rw [exec_eq_runCommand, exec_eq_runCommand, (s.seq_same _).program, runCommand_issue hq (hp ▸ hk)]
    · cases hw
      exact ⟨k, by rw [(s.seq_same _).commandProgram, hk]⟩

/-- A phase that completes the command gives the outcome of its run (R75, R76). -/
theorem exec_corePhase_idle (hb : s.busy = true) (hd : decode s.cmd = .ok i) (ht : corePhase s = .next t)
    (hi : t.busy = false) : exec i s = .next t := by
  have hp := commandProgram_of_decode hd
  rcases corePhase_spec ht with rfl | ⟨h, r, -, rfl⟩ | ⟨h, hq, ⟨e, he, rfl⟩ | ⟨_, _, _, he, rfl⟩ | ⟨r, k, -, rfl⟩⟩
  · rw [hb] at hi; cases hi
  · rw [receive_busy] at hi; cases hi
  · rw [exec_eq_runCommand, runCommand_quiet _ hq, ← hp, he, Prog.run]
  · rw [exec_eq_runCommand, runCommand_quiet _ hq, ← hp, he, Prog.run]
  · cases hi

/-- A phase that stops the model stops it as the run of the command does. -/
theorem exec_corePhase_fault {f : Fault} (hd : decode s.cmd = .ok i) (hf : corePhase s = .fault f) :
    exec i s = .fault f := by
  obtain ⟨h, hq, hs⟩ := corePhase_fault hf
  rw [exec_eq_runCommand, runCommand_quiet _ hq, ← commandProgram_of_decode hd, hs, Prog.run]

/-- Settles O56: a phase issues a request, takes an answer, or ends the command, and a run passes through the same states. -/
theorem phasesAgreeWithRun : Obligations.PhasesAgreeWithRun := fun _ _ hb hc hd =>
  ⟨fun _ ht hbt => exec_corePhase_busy hd hc ht hbt, fun _ ht hi => exec_corePhase_idle hb hd ht hi,
    fun _ hf => exec_corePhase_fault hd hf⟩

end Sys2Proof.Machine

/-! ## The host port (R43 to R62, R100 to R103) -/

namespace Sys2Proof.Machine

open Sys2Proof.Spec

variable {s t : State} {a v : Word} {rest : List Event}

/-! ### Writes -/

theorem hostWrite_register (ha : isAligned a = true) (hw : s.inWindow (s.portOffset a) = false) (v : Word) :
    hostWrite s a v = .next (s.writeRegister (s.portOffset a) v) := by
  simp [hostWrite, ha, hw]

/-- Every offset of the register map lies below the window (R101). -/
theorem inWindow_of_lt {off : Nat} (h : off < windowBase) (s : State) : s.inWindow off = false := by
  simp only [State.inWindow, Bool.and_eq_false_iff, decide_eq_false_iff_not]
  omega

theorem step_write_register (h : s.agenda = .write a v :: rest) (ha : isAligned a = true)
    (hw : s.inWindow (s.portOffset a) = false) :
    step s = .next ((s.afterEvent rest).writeRegister (s.portOffset a) v) :=
  (step_cons h).trans (hostWrite_register (s := s.afterEvent rest) ha hw v)

/-- What a write to an offset other than CMD makes of each register it may change (R43, R45, R53, R54, R57). -/
theorem writeRegister_eq {off : Nat} (hcmd : off ≠ 0x028) (s : State) (v : Word) :
    s.writeRegister off v =
      { s with
        irqEn := if off = 0x020 then v.getLsbD 0 else s.irqEn
        done := if off = 0x024 then s.done && !v.getLsbD 1 else s.done
        ovr := if off = 0x024 then s.ovr && !v.getLsbD 3 else s.ovr
        args := if 0x040 ≤ off ∧ off < 0x060 then s.args.setIfInBounds ((off - 0x040) / 4) v else s.args } := by
  by_cases hctrl : off = 0x020
  · subst hctrl; rfl
  by_cases hstatus : off = 0x024
  · subst hstatus; rfl
  by_cases harg : 0x040 ≤ off ∧ off < 0x060
  · simp only [State.writeRegister, hctrl, hstatus, hcmd, harg, and_self, if_true, if_false, State.writeArg]
  · simp only [State.writeRegister, hctrl, hstatus, hcmd, harg, if_false]

/-- Settles O49: a write outside the window and CMD reaches CTRL, STATUS or one ARG, by its offset. -/
theorem hostRegisterWrites : Obligations.HostRegisterWrites := by
  intro s a v rest h ha hw hcmd
  rw [step_write_register h ha hw, writeRegister_eq hcmd]
  rfl

/-- Settles O47: the write reaches `writeCmd`, whose two cases are an accept and a drop. -/
theorem cmdWriteAcceptsOrDrops : Obligations.CmdWriteAcceptsOrDrops := by
  intro s a w rest h ha hoff
  have hstep : step s = .next ((s.afterEvent rest).writeCmd w) := by
    have hw : s.inWindow (s.portOffset a) = false := by rw [hoff]; exact inWindow_of_lt (by decide) s
    rw [step_write_register h ha hw, hoff]
    rfl
  have hbusy : (s.afterEvent rest).busy = s.busy := rfl
  rw [hstep, State.writeCmd, hbusy]
  constructor <;> intro hb <;> rw [hb] <;> rfl

/-! ### The words that pack fields -/

theorem toNat_append_eq_add {m n : Nat} (x : BitVec m) (y : BitVec n) :
    (x ++ y).toNat = x.toNat * 2 ^ n + y.toNat := by
  rw [BitVec.toNat_append, ← Nat.shiftLeft_add_eq_or_of_lt y.isLt, Nat.shiftLeft_eq]

theorem ctrlWord_eq (s : State) : s.ctrlWord = BitVec.ofNat 32 s.irqEn.toNat := by
  unfold State.ctrlWord
  cases s.irqEn <;> rfl

theorem errcodeBits_eq (s : State) : s.errcodeBits = BitVec.ofNat 4 (codeOf s.errcode) := by
  unfold State.errcodeBits
  rcases s.errcode with _ | k
  · rfl
  · cases k <;> rfl

theorem codeOf_lt (e : Option ErrorKind) : codeOf e < 8 := by
  rcases e with _ | k
  · decide
  · cases k <;> decide

/-- STATUS as the sum of its fields (R54). -/
theorem statusWord_eq (s : State) :
    s.statusWord = BitVec.ofNat 32 (s.busy.toNat + 2 * s.done.toNat + 4 * s.err.toNat + 8 * s.ovr.toNat +
      2 ^ 8 * codeOf s.errcode) := by
  have hcode := codeOf_lt s.errcode
  apply BitVec.eq_of_toNat_eq
  simp only [State.statusWord, errcodeBits_eq, toNat_append_eq_add, BitVec.toNat_ofNat, BitVec.toNat_ofBool]
  have := s.busy.toNat_le; have := s.done.toNat_le; have := s.err.toNat_le; have := s.ovr.toNat_le
  omega

theorem parityModeBit_toNat (m : ParityMode) :
    (parityModeBit m).toNat = if m = .incremental then 1 else 0 := by cases m <;> rfl

/-- PARAMS0 as the sum of its fields (R48). -/
theorem paramsWord0_eq {p : Params} (h : p.Legal) :
    paramsWord0 p = BitVec.ofNat 32 (p.nbuf + 2 ^ 8 * p.log2MaxBsize + 2 ^ 16 * p.mulImpl.toNat +
      2 ^ 17 * p.invImpl.toNat + 2 ^ 18 * (if p.putParityMode = .incremental then 1 else 0)) := by
  obtain ⟨-, hnbuf, -, hlog, -⟩ := h
  apply BitVec.eq_of_toNat_eq
  simp only [paramsWord0, toNat_append_eq_add, BitVec.toNat_ofNat, BitVec.toNat_ofBool, parityModeBit_toNat]
  have := p.mulImpl.toNat_le; have := p.invImpl.toNat_le
  split <;> omega

/-- PARAMS1 as the sum of its fields (R49). -/
theorem paramsWord1_eq {p : Params} (h : p.Legal) :
    paramsWord1 p = BitVec.ofNat 32 (p.mulLat + 2 ^ 8 * p.invLat + 2 ^ 16 * p.lanesLog2) := by
  obtain ⟨-, -, -, -, hmul, -, hinv, hlanes, -⟩ := h
  apply BitVec.eq_of_toNat_eq
  simp only [paramsWord1, toNat_append_eq_add, BitVec.toNat_ofNat]
  omega

/-! ### Reads -/

/-- The register map of R44 lists the offsets of the registers with the words read there. -/
theorem registerTable_eq (h : s.params.Legal) :
    registerTable s = registerOffsets.map fun off => (off, s.registerWord off) := by
  rw [registerTable, ← paramsWord0_eq h, ← paramsWord1_eq h, ← ctrlWord_eq, ← statusWord_eq]
  rfl

theorem registerOffsets_lt_windowBase {off : Nat} (h : off ∈ registerOffsets) : off < windowBase := by
  have all : ∀ off ∈ registerOffsets, off < windowBase := by decide
  exact all off h

/-- A reserved word offset reads 0 (R45). -/
theorem registerWord_reserved {off : Nat} (h4 : off % 4 = 0) (h : off ∉ registerOffsets) (s : State) :
    s.registerWord off = 0#32 := by
  simp only [registerOffsets, List.cons_append, List.nil_append, List.mem_cons, List.not_mem_nil, or_false, not_or] at h
  have hargs : ¬(0x040 ≤ off ∧ off < 0x060) := by omega
  have hres : ¬(0x060 ≤ off ∧ off < 0x070) := by omega
  simp only [State.registerWord, h, hargs, hres, if_false]

theorem toNat_extractLsb'_two (x : Word) : (x.extractLsb' 0 2).toNat = x.toNat % 4 := by
  simp [BitVec.extractLsb'_toNat]

/-- An aligned address reaches a word offset, since the base is aligned too (R100, R114). -/
theorem portOffset_mod_four (h : s.params.Legal) (ha : isAligned a = true) : s.portOffset a % 4 = 0 := by
  obtain ⟨-, -, -, -, -, -, -, -, hbase⟩ := h
  have hb := congrArg BitVec.toNat hbase
  have ha' := congrArg BitVec.toNat (eq_of_beq ha)
  rw [toNat_extractLsb'_two] at hb ha'
  simp only [BitVec.toNat_ofNat] at hb ha'
  rw [State.portOffset, BitVec.toNat_sub]
  omega

theorem step_read_register (h : s.agenda = .read a :: rest) (ha : isAligned a = true)
    (hw : s.inWindow (s.portOffset a) = false) :
    step s = .next { s with agenda := rest, rdata := s.registerWord (s.portOffset a) } := by
  have hread : hostRead (s.afterEvent rest) a =
      .next ((s.afterEvent rest).returned (s.registerWord (s.portOffset a))) := by
    have hw' : (s.afterEvent rest).inWindow ((s.afterEvent rest).portOffset a) = false := hw
    simp only [hostRead, ha, hw', Bool.not_true, Bool.false_eq_true, if_false]
    rfl
  exact (step_cons h).trans hread

/-- Settles O52: the map is the table of the register words, and the observation of a run that has ended holds that table. -/
theorem registerMapReads : Obligations.RegisterMapReads := by
  refine ⟨fun s a rest hl h ha => ?_, fun s hl => ?_⟩
  · rw [registerTable_eq hl]
    refine ⟨fun v hv => ?_, fun hw hv => ?_⟩
    · obtain ⟨off, hmem, heq⟩ := List.mem_map.1 hv
      obtain ⟨rfl, rfl⟩ := Prod.mk.inj heq
      exact step_read_register h ha (inWindow_of_lt (registerOffsets_lt_windowBase hmem) s)
    · have hres : s.portOffset a ∉ registerOffsets := fun hmem => hv _ (List.mem_map_of_mem hmem)
      rw [step_read_register h ha hw, registerWord_reserved (portOffset_mod_four hl ha) hres]
  · refine ⟨fun hnil hidle => ?_, fun hgo => ?_⟩
    · simp [State.observation, State.runEnded, hnil, hidle, registerTable_eq hl]
    · have hend : s.runEnded = false := by
        rcases hgo with hne | hb
        · simp [State.runEnded, hne]
        · simp [State.runEnded, hb]
      simp [State.observation, hend]

end Sys2Proof.Machine

/-! ## What a command does to the registers (R56 to R62, R71 to R77) -/

namespace Sys2Proof.Machine

open Sys2Proof.Spec

variable {s t u : State} {i : Instr}

/-! ### The host's registers (R56, R473) -/

/-- `s` with the registers the host may write while a command runs. -/
def State.hostWritten (args : Vector Word 8) (irqEn ovr : Bool) (s : State) : State :=
  { s with args := args, irqEn := irqEn, ovr := ovr }

/-- No move of a running command sees the registers the host may write. -/
theorem unseen_hostWritten (args : Vector Word 8) (irqEn ovr : Bool) : Unseen (State.hostWritten args irqEn ovr) where
  seq _ := rfl
  complete _ _ := rfl
  completeError _ _ _ _ := rfl
  receive s r := by
    have written := receive_withStore (s.hostWritten args irqEn ovr) s r
    have same := receive_withStore s s r
    refine written.trans ?_
    rw [show s.receive r = _ from same]
    rfl

/-- Settles O53: neither the program nor the run of it sees ARG, CTRL or OVR. -/
theorem hostWritesDoNotReachCommand : Obligations.HostWritesDoNotReachCommand := fun i _ args irqEn ovr =>
  (unseen_hostWritten args irqEn ovr).exec_commutes (program_congr i rfl rfl rfl rfl rfl rfl)

/-! ### The RES registers a completion writes (R58, R145) -/

/-- The completion writes the RES registers of the list, in its order. -/
abbrev Effects.WritesRes (l : List (Fin 4)) (e : Effects) : Prop := e.res.map Prod.fst = l

theorem applyRes_get_of_not_mem {ws : List (Fin 4 × Word)} {j : Fin 4} (h : j ∉ ws.map Prod.fst) (res : Vector Word 4) :
    (applyRes res ws).get j = res.get j := by
  induction ws generalizing res with
  | nil => rfl
  | cons w ws ih =>
    rw [List.map_cons, List.mem_cons, not_or] at h
    obtain ⟨hw, hws⟩ := h
    have hne : w.1.val ≠ j.val := fun he => hw (Fin.ext he.symm)
    rw [applyRes, ih hws, Vector.get_eq_getElem, Vector.get_eq_getElem, Vector.getElem_set_ne _ _ hne]

theorem checkFrom_writesRes (n bs left stripe : Nat) :
    (checkFrom n bs left stripe).Finishes (Effects.WritesRes [0, 1]) := by
  induction left generalizing stripe with
  | zero => exact rfl
  | succ left ih =>
    exact all_readData _ (fun _ _ => trivial) fun _ _ => all_bsRead trivial fun _ => all_bsRead trivial fun _ =>
      Prog.finishes_ite rfl (ih (stripe + 1))

/-- A successful completion writes exactly the RES registers that the command's rule names. -/
theorem program_writesRes (i : Instr) (s : State) : (program i s).Finishes (Effects.WritesRes (resNamed i)) := by
  cases i with
  | gfMul => exact rfl
  | gfPow => exact rfl
  | gfInv =>
    simp only [program, gfInvProgram]
    split
    · trivial
    · exact rfl
  | gfSolve2 =>
    simp only [program, gfSolve2Program]
    refine Prog.finishes_ite trivial ?_
    split
    · trivial
    · exact rfl
  | blkXor =>
    exact all_blockChecks (fun _ => all_withBuffer fun _ _ => all_withBuffer fun _ _ => rfl) fun _ => trivial
  | blkScale => exact all_blockChecks (fun _ => all_withBuffer fun _ _ => rfl) fun _ => trivial
  | parComputeP => exact all_blockChecks (fun _ => all_withBuffers _ _ fun _ _ => rfl) fun _ => trivial
  | parComputeQ => exact all_blockChecks (fun _ => all_withBuffers _ _ fun _ _ => rfl) fun _ => trivial
  | parUpdateP =>
    exact all_blockChecks (fun _ => all_withBuffer fun _ _ => all_withBuffer fun _ _ => all_withBuffer fun _ _ => rfl)
      fun _ => trivial
  | parUpdateQ =>
    exact all_blockChecks (fun _ => all_withBuffer fun _ _ => all_withBuffer fun _ _ => all_withBuffer fun _ _ => rfl)
      fun _ => trivial
  | layPdiskP => exact all_whenConfigured (fun _ => all_whenStripe (fun _ => rfl) fun _ => trivial) fun _ => trivial
  | layPdiskQ => exact all_whenConfigured (fun _ => all_whenStripe (fun _ => rfl) fun _ => trivial) fun _ => trivial
  | layIspar =>
    exact all_whenConfigured (fun _ => all_whenDisk (fun _ => all_whenStripe (fun _ => Prog.finishes_ite rfl rfl)
      fun _ => trivial) fun _ => trivial) fun _ => trivial
  | layResolve =>
    exact all_whenConfigured (fun _ => all_whenDisk (fun _ => Prog.finishes_ite trivial rfl) fun _ => trivial)
      fun _ => trivial
  | init => exact Prog.finishes_ite trivial (Prog.finishes_ite trivial rfl)
  | put =>
    unfold program putProgram
    refine all_transferChecks (fun stripe off _ _ _ _ _ => ?_) fun _ _ _ => trivial
    split
    · exact all_readData _ (fun _ _ => trivial) fun _ _ => all_withBuffer fun _ _ =>
        all_bsWrite trivial <| all_bsWrite trivial <| all_bsWrite trivial rfl
    · exact all_bsRead trivial fun _ => all_bsRead trivial fun _ => all_bsRead trivial fun _ => all_withBuffer fun _ _ =>
        all_bsWrite trivial <| all_bsWrite trivial <| all_bsWrite trivial rfl
  | putraw =>
    unfold program putrawProgram
    exact all_transferChecks (fun _ _ _ _ _ _ _ => all_withBuffer fun _ _ => all_bsWrite trivial rfl)
      fun _ _ _ => trivial
  | get =>
    unfold program getProgram
    exact all_transferChecks (fun _ _ _ _ _ _ _ => all_bsRead trivial fun _ => rfl) fun _ _ _ => trivial
  | recSingleData =>
    exact all_recoveryChecksOne (fun _ _ _ => all_whenRole (fun _ => all_readData _ (fun _ _ => trivial) fun _ _ =>
      all_bsRead trivial fun _ => all_bsWrite trivial rfl) fun _ => trivial) fun _ _ _ => trivial
  | recSingleParity =>
    exact all_recoveryChecksOne (fun _ _ _ => all_whenRole (fun _ => all_readData _ (fun _ _ => trivial) fun _ _ =>
      all_bsWrite trivial rfl) fun _ => trivial) fun _ _ _ => trivial
  | recDoubleData =>
    refine all_recoveryChecksTwo (fun _ _ _ _ _ => all_whenRole (fun _ => all_whenRole (fun _ =>
      all_readData _ (fun _ _ => trivial) fun _ _ => all_bsRead trivial fun _ => all_bsRead trivial fun _ => ?_)
      fun _ => trivial) fun _ => trivial) fun _ _ _ => trivial
    split
    · trivial
    · exact all_bsWrite trivial (all_bsWrite trivial rfl)
  | recDoubleParity =>
    exact all_recoveryChecksTwo (fun _ _ _ _ _ => all_whenRole (fun _ => all_whenRole (fun _ =>
      all_readData _ (fun _ _ => trivial) fun _ _ => all_bsWrite trivial (all_bsWrite trivial rfl))
      fun _ => trivial) fun _ => trivial) fun _ _ _ => trivial
  | recDataAndParity =>
    exact all_recoveryChecksTwo (fun _ _ _ _ _ => all_whenRole (fun _ =>
      all_readData _ (fun _ _ => trivial) fun _ _ => Prog.finishes_ite
        (all_bsRead trivial fun _ => all_bsWrite trivial (all_bsWrite trivial rfl))
        (all_bsRead trivial fun _ => all_bsWrite trivial (all_bsWrite trivial rfl))) fun _ => trivial) fun _ _ _ => trivial
  | check => exact all_whenConfigured (fun _ => checkFrom_writesRes _ _ _ _) fun _ => trivial

/-! ### How a command ends (R57, R75 to R77) -/

theorem Prog.Finishes.and {E E' : Effects → Prop} {p : Prog} (h : p.Finishes E) (h' : p.Finishes E') :
    p.Finishes fun e => E e ∧ E' e := by
  induction p with
  | done e => exact ⟨h, h'⟩
  | raise => trivial
  | stop => trivial
  | ask r k ih => exact ⟨trivial, fun b => ih b (h.2 b) (h'.2 b)⟩

/-- What a successful completion of the command stages in its RES registers and in CFG. -/
theorem program_stages (i : Instr) (s : State) :
    (program i s).Finishes fun e => e.WritesRes (resNamed i) ∧ (i ≠ .init → e.KeepsCfg) := by
  by_cases hi : i = .init
  · exact (program_writesRes i s).mono (fun _ he => ⟨he, absurd hi⟩) (fun _ _ _ => id) fun _ => id
  · exact ((program_writesRes i s).and (program_keepsCfg hi s)).mono (fun _ he => ⟨he.1, fun _ => he.2⟩)
      (fun _ _ _ => id) fun _ => id

/-- Every way a command goes on: it completes, with or without an error, or it stalls on a request; until then nothing but the
BlockStore, its inputs and the sequencer has changed. -/
theorem exec_ends (h : exec i s = .next t) :
    ∃ u, s.SameCore u ∧
      ((∃ e, e.WritesRes (resNamed i) ∧ (i ≠ .init → e.KeepsCfg) ∧ t = u.complete e) ∨
        (∃ kind d b, t = u.completeError kind d b) ∨
        (t = u ∧ ∃ hist r, u.seq = .exec hist (.stalled r))) := by
  rw [exec_eq_runCommand] at h
  obtain ⟨u, hu, -, -, hend⟩ := runCommand_spec (program_stages i s) h
  refine ⟨u, hu, ?_⟩
  rcases hend with ⟨e, ⟨hres, hcfg⟩, rfl⟩ | ⟨kind, d, b, -, rfl⟩ | hstall
  · exact .inl ⟨e, hres, hcfg, rfl⟩
  · exact .inr (.inl ⟨kind, d, b, rfl⟩)
  · exact .inr (.inr hstall)

/-- Settles O54, by the three ways a command ends. -/
theorem commandRegisterFrame : Obligations.CommandRegisterFrame := by
  intro i s t h
  obtain ⟨u, hu, hend⟩ := exec_ends h
  obtain ⟨disk, answers, draws, seq, rfl⟩ :
      ∃ disk answers draws seq, u = { s with disk := disk, answers := answers, draws := draws, seq := seq } :=
    ⟨_, _, _, _, hu⟩
  rcases hend with ⟨e, hres, hcfg, rfl⟩ | ⟨kind, d, b, rfl⟩ | ⟨rfl, hist, r, hq⟩
  · refine ⟨rfl, rfl, rfl, rfl, rfl, rfl, rfl, rfl, rfl, fun hi => ?_, fun j hj => ?_, fun _ => ⟨rfl, nofun⟩,
      fun _ _ => ⟨rfl, rfl, rfl, rfl⟩, fun hne => absurd rfl hne, fun _ => rfl⟩
    · simp [hcfg hi]
    · exact applyRes_get_of_not_mem (hres ▸ hj) _
  · exact ⟨rfl, rfl, rfl, rfl, rfl, rfl, rfl, rfl, rfl, fun _ => ⟨rfl, rfl, rfl⟩, fun _ _ => rfl,
      fun _ => ⟨rfl, fun _ => ⟨rfl, rfl, rfl, rfl, rfl, rfl⟩⟩, nofun, fun hne => absurd rfl hne, fun _ => rfl⟩
  · have busy : ∀ {P : Prop}, seq = .idle → P := fun hi => by rw [show seq = _ from hq] at hi; cases hi
    exact ⟨rfl, rfl, rfl, rfl, rfl, rfl, rfl, rfl, rfl, fun _ => ⟨rfl, rfl, rfl⟩, fun _ _ => rfl, busy, busy,
      fun _ => ⟨rfl, rfl, rfl, rfl, rfl, rfl, rfl, rfl, rfl⟩, busy⟩

/-! ### The interrupt output (R71, R415) -/

/-- Settles O60: a completion sets DONE and no command writes IRQ_EN; the rest is each update's effect on the two. -/
theorem irqRisesAndClears : Obligations.IrqRisesAndClears := by
  refine ⟨fun _ => rfl, fun i s t h hidle => ?_, fun _ _ => rfl, fun s v hv => ?_, fun s v hv => ?_, fun s v hv => ?_⟩
  · obtain ⟨u, hu, hend⟩ := exec_ends h
    rw [← hu.irqEn]
    rcases hend with ⟨e, -, -, rfl⟩ | ⟨kind, d, b, rfl⟩ | ⟨rfl, hist, r, hq⟩
    · exact Bool.true_and _
    · exact Bool.true_and _
    · rw [hq] at hidle; cases hidle
  · rw [State.irq, writeStatus_done, hv, Bool.not_true, Bool.and_false, Bool.false_and]
  · rw [State.irq, writeCtrl_irqEn, hv, Bool.and_false]
  · rw [State.irq, writeCtrl_done, writeCtrl_irqEn, hv, Bool.and_true]

/-! ### A request that is never answered (R77) -/

theorem hostWrite_busy_seq {a v : Word} (hb : s.busy = true) (h : hostWrite s a v = .next t) : t.seq = s.seq := by
  rcases hostWrite_spec h with rfl | rfl | rfl | ⟨hidle, -⟩ | ⟨-, rfl⟩ | ⟨_, rfl⟩ | ⟨hidle, -⟩
  case inr.inr.inr.inl => rw [hb] at hidle; cases hidle
  case inr.inr.inr.inr.inr.inr => rw [hb] at hidle; cases hidle
  all_goals rfl

/-- A stalled command stays in EXEC at its request through every step but a reset. -/
theorem step_stalled_seq {h : List Response} {r : Request} {e : Event} {rest : List Event}
    (hs : s.seq = .exec h (.stalled r)) (ha : s.agenda = e :: rest) (he : e ≠ .reset) (hstep : step s = .next t) :
    t.seq = s.seq := by
  have hb : s.busy = true := by simp only [State.busy, hs]
  rcases step_spec hstep with ⟨-, hrun⟩ | rfl | ⟨e', rest', ha', hev⟩
  · rw [runCommand_stalled _ hs] at hrun
    cases hrun; rfl
  · rfl
  · rcases hev with ⟨a, -, hr⟩ | ⟨a, v, -, hw⟩ | ⟨-, hidle, -⟩ | ⟨-, -, rfl⟩ | ⟨-, hc⟩ | ⟨rfl, -⟩
    · rw [hostRead_spec hr]; rfl
    · exact hostWrite_busy_seq (s := s.afterEvent rest') hb hw
    · rw [hb] at hidle; cases hidle
    · rfl
    · rw [corePhase, show (s.afterEvent rest').seq = _ from hs] at hc
      cases hc; rfl
    · rw [ha] at ha'
      cases ha'
      exact absurd rfl he

/-- Settles O59: the silent answer stalls the command at its request, and of all steps only a reset takes it from there. -/
theorem stalledCommandWaits : Obligations.StalledCommandWaits := by
  refine ⟨fun i s r k rest hns hp ha => ?_, fun s h r hs => ?_⟩
  · rw [exec_eq_runCommand, runCommand, hns, hp]
    exact run_ask_silent ha
  · have hb : s.busy = true := by simp only [State.busy, hs]
    have hrun : s.runEnded = false := by simp [State.runEnded, hb]
    refine ⟨hb, hrun, by simp [State.observation, hrun], fun ha => ?_, fun e rest t ha he hstep => ?_, fun rest ha => ?_⟩
    · rw [step_nil ha, coreRun_eq, hb, if_pos rfl, runCommand_stalled _ hs]
    · have hseq := step_stalled_seq hs ha he hstep
      exact ⟨by rw [State.busy, hseq, hs], hseq⟩
    · exact ⟨coreReset (s.afterEvent rest), step_cons ha, rfl⟩

/-! ### The state after reset (R72, R451) -/

/-- Settles O44: the registers of `State.reset` are zero by its definition, and an empty BUF has no byte (R64). -/
theorem resetRegisters : Obligations.ResetRegisters := by
  refine ⟨rfl, rfl, rfl, rfl, by decide, rfl, fun i => ?_, fun i => ?_, rfl, rfl, rfl, fun _ _ => rfl, rfl, rfl, rfl, rfl,
    by decide⟩
  · exact ⟨Vector.getElem_replicate i.isLt, Vector.getElem_replicate i.isLt⟩
  · exact Vector.getElem_replicate i.isLt

/-- Settles O45: the build is the default one, CFG is zero, the memories are empty and the port is quiet. -/
theorem resetMeetsInvariant : Obligations.ResetMeetsInvariant :=
  ⟨by decide, .inl ⟨rfl, rfl, rfl⟩, ⟨rfl, rfl⟩, rfl, portConsistent_of_not_busy rfl⟩

end Sys2Proof.Machine

/-! ## The buffer window (R63, R64, R100 to R103, R112, R471, R472) -/

namespace Sys2Proof.Machine

open Sys2Proof.Spec

variable {s t : State} {a v : Word} {rest : List Event}

/-! ### Bytes of BUF -/

theorem bufKey_add (p : Params) (b i j : Nat) : bufKey p b (i + j) = bufKey p b i + j :=
  (Nat.add_assoc _ _ _).symm

/-- A byte index past a run that stays in its buffer has a key past the keys of the run, and so before it. -/
theorem bufKey_outside {p : Params} {b i n b' i' : Nat} (hi : i + n ≤ p.maxBsize) (hi' : i' < p.maxBsize)
    (h : ¬(b' = b ∧ i ≤ i' ∧ i' < i + n)) :
    bufKey p b' i' < bufKey p b i ∨ bufKey p b i + n ≤ bufKey p b' i' := by
  simp only [bufKey]
  rcases Nat.lt_trichotomy b' b with hlt | rfl | hgt
  · have := Nat.mul_le_mul_right p.maxBsize (Nat.succ_le_of_lt hlt)
    rw [Nat.succ_mul] at this
    omega
  · omega
  · have := Nat.mul_le_mul_right p.maxBsize (Nat.succ_le_of_lt hgt)
    rw [Nat.succ_mul] at this
    omega

theorem State.bufByte_bufWith (s : State) (b i : Nat) (bytes : Block) {j : Nat} (h : j < bytes.length) :
    ({ s with buf := s.bufWith b i bytes } : State).bufByte b (i + j) = some bytes[j] := by
  simp only [State.bufByte, State.bufWith, bufKey_add]
  exact Memory.read_writeBytes _ _ _ _ _ h

/-- The four bytes of a word, bits 7:0 first (R102). -/
theorem State.bufByte_bufWith_word (s : State) (b i : Nat) (v : Word) :
    let t : State := { s with buf := s.bufWith b i (bytesOfWord v) }
    t.bufByte b i = some (v.extractLsb' 0 8) ∧ t.bufByte b (i + 1) = some (v.extractLsb' 8 8) ∧
      t.bufByte b (i + 2) = some (v.extractLsb' 16 8) ∧ t.bufByte b (i + 3) = some (v.extractLsb' 24 8) := by
  have hlen : (bytesOfWord v).length = 4 := rfl
  have hset {j : Nat} (h : j < 4) := s.bufByte_bufWith b i (bytesOfWord v) (hlen.symm ▸ h)
  exact ⟨hset (j := 0) (by decide), hset (by decide), hset (by decide), hset (by decide)⟩

theorem State.bufByte_bufWith_other (s : State) {b i b' i' : Nat} {bytes : Block}
    (hi : i + bytes.length ≤ s.params.maxBsize) (hi' : i' < s.params.maxBsize)
    (h : ¬(b' = b ∧ i ≤ i' ∧ i' < i + bytes.length)) :
    ({ s with buf := s.bufWith b i bytes } : State).bufByte b' i' = s.bufByte b' i' :=
  Memory.read_writeBytes_other _ _ _ _ _ (bufKey_outside hi hi' h)

/-- A run of bytes of one buffer has a value exactly if each of its bytes has one. -/
theorem State.bufBytes_eq_some (s : State) (b i len : Nat) (bytes : Block) :
    s.bufBytes b i len = some bytes ↔
      bytes.length = len ∧ ∀ j (h : j < bytes.length), s.bufByte b (i + j) = some bytes[j] := by
  simp only [State.bufByte, bufKey_add]
  exact Memory.readBytes_eq_some _ _ _ _ _

theorem State.bufBytes_length {b i len : Nat} {bytes : Block} (h : s.bufBytes b i len = some bytes) :
    bytes.length = len :=
  ((s.bufBytes_eq_some b i len bytes).1 h).1

theorem bytesOf_length (len : Nat) (f : Nat → Byte) : (bytesOf len f).length = len := by simp [bytesOf]

theorem State.bufBytes_of_values {b i len : Nat} {f : Nat → Byte}
    (h : ∀ j < len, s.bufByte b (i + j) = some (f j)) : s.bufBytes b i len = some (bytesOf len f) := by
  refine (s.bufBytes_eq_some b i len _).2 ⟨bytesOf_length len f, fun j hj => ?_⟩
  rw [bytesOf_length] at hj
  simpa [bytesOf] using h j hj

theorem State.bufBytes_of_unwritten {b i len : Nat} (h : ∃ j < len, s.bufByte b (i + j) = none) :
    s.bufBytes b i len = none := by
  obtain ⟨j, hj, hnone⟩ := h
  refine Option.eq_none_iff_forall_ne_some.2 fun bytes hb => ?_
  obtain ⟨rfl, hsome⟩ := (s.bufBytes_eq_some b i len bytes).1 hb
  rw [hsome j hj] at hnone
  cases hnone

/-! ### Accesses -/

/-- A word access in the window stays in one buffer (R101). -/
theorem windowIndex_add_four_le (hl : s.params.Legal) (ha : isAligned a = true) :
    s.windowIndex (s.portOffset a) + 4 ≤ s.params.maxBsize := by
  have hword := portOffset_mod_four hl ha
  obtain ⟨-, -, hlog, -⟩ := hl
  have hdvd : 4 ∣ s.params.maxBsize := Nat.pow_dvd_pow 2 hlog
  have hlt : s.windowIndex (s.portOffset a) < s.params.maxBsize := Nat.mod_lt _ (Nat.two_pow_pos _)
  have hmod : s.windowIndex (s.portOffset a) % 4 = (s.portOffset a - windowBase) % 4 := Nat.mod_mod_of_dvd _ hdvd
  simp only [windowBase] at hmod
  omega

theorem step_write_window (h : s.agenda = .write a v :: rest) (ha : isAligned a = true)
    (hw : s.inWindow (s.portOffset a) = true) :
    step s = .next ((s.afterEvent rest).writeWindow (s.portOffset a) v) := by
  have hwrite : hostWrite (s.afterEvent rest) a v =
      .next ((s.afterEvent rest).writeWindow (s.portOffset a) v) := by
    have hw' : (s.afterEvent rest).inWindow ((s.afterEvent rest).portOffset a) = true := hw
    simp only [hostWrite, ha, hw', Bool.not_true, Bool.false_eq_true, if_false, if_true]
    rfl
  exact (step_cons h).trans hwrite

/-- A window write while IDLE sets the four bytes of the word in one buffer (R102). -/
theorem step_write_window_idle (h : s.agenda = .write a v :: rest) (ha : isAligned a = true)
    (hw : s.inWindow (s.portOffset a) = true) (hb : s.busy = false) :
    step s = .next { s with
      agenda := rest
      buf := s.bufWith (s.windowBuffer (s.portOffset a)) (s.windowIndex (s.portOffset a)) (bytesOfWord v) } := by
  have hb' : (s.afterEvent rest).busy = false := hb
  rw [step_write_window h ha hw, State.writeWindow, hb']
  rfl

/-- A window write while BUSY = 1 is dropped and sets OVR (R472). -/
theorem step_write_window_busy (h : s.agenda = .write a v :: rest) (ha : isAligned a = true)
    (hw : s.inWindow (s.portOffset a) = true) (hb : s.busy = true) :
    step s = .next { s with agenda := rest, ovr := true } := by
  have hb' : (s.afterEvent rest).busy = true := hb
  rw [step_write_window h ha hw, State.writeWindow, hb']
  rfl

/-- A window read while IDLE returns the four bytes where each has a value (R102). -/
theorem hostRead_window_written {bytes : Block} (ha : isAligned a = true) (hw : s.inWindow (s.portOffset a) = true)
    (hb : s.busy = false)
    (h : s.bufBytes (s.windowBuffer (s.portOffset a)) (s.windowIndex (s.portOffset a)) 4 = some bytes) :
    hostRead s a = .next (s.returned (wordOfBytes bytes)) := by
  simp only [hostRead, ha, hw, hb, h, Bool.not_true, Bool.false_eq_true, if_false, if_true]

/-- A window read while IDLE stops where one of the four bytes has no value (R64). -/
theorem hostRead_window_unwritten (ha : isAligned a = true) (hw : s.inWindow (s.portOffset a) = true)
    (hb : s.busy = false)
    (h : s.bufBytes (s.windowBuffer (s.portOffset a)) (s.windowIndex (s.portOffset a)) 4 = none) :
    hostRead s a = .fault .unwrittenBuffer := by
  simp only [hostRead, ha, hw, hb, h, Bool.not_true, Bool.false_eq_true, if_false, if_true]

/-- A window read while BUSY = 1 draws a free word (R471). -/
theorem hostRead_window_busy (ha : isAligned a = true) (hw : s.inWindow (s.portOffset a) = true)
    (hb : s.busy = true) :
    hostRead s a = .next { s with rdata := Config.freeWord s.draws, draws := s.draws + 1 } := by
  simp only [hostRead, ha, hw, hb, Bool.not_true, Bool.false_eq_true, if_false, if_true]

/-- Settles O48: a write to the window is a write of four bytes of one buffer or a drop, a read is a read of four bytes, a stop
or a free word. -/
theorem windowAccess : Obligations.WindowAccess := by
  intro s a rest ha hw w b i
  refine ⟨fun v h hb => ?_, fun v h hb => step_write_window_busy h ha hw hb,
    fun h hb => ⟨fun f hf => ?_, fun hnone => ?_⟩,
    fun h hb => ⟨_, (step_cons h).trans (hostRead_window_busy (s := s.afterEvent rest) ha hw hb)⟩⟩
  · obtain ⟨hset0, hset1, hset2, hset3⟩ := s.bufByte_bufWith_word b i v
    exact ⟨_, step_write_window_idle h ha hw hb, rfl, hset0, hset1, hset2, hset3, fun b' i' hi' hout hl =>
      s.bufByte_bufWith_other (bytes := bytesOfWord v) (windowIndex_add_four_le hl ha) hi' hout⟩
  · have hbytes : (s.afterEvent rest).bufBytes b i 4 = some (bytesOf 4 f) := State.bufBytes_of_values hf
    exact (step_cons h).trans (hostRead_window_written (s := s.afterEvent rest) ha hw hb hbytes)
  · have hbytes : (s.afterEvent rest).bufBytes b i 4 = none := State.bufBytes_of_unwritten hnone
    exact (step_cons h).trans (hostRead_window_unwritten (s := s.afterEvent rest) ha hw hb hbytes)

/-- Settles O50: what a host read changes is the law of `hostRead`. -/
theorem hostReadsHaveNoSideEffects : Obligations.HostReadsHaveNoSideEffects := by
  intro s t a rest h hstep
  rw [step_cons h] at hstep
  exact hostRead_spec (s := s.afterEvent rest) hstep

/-- Settles O51: alignment is the first test of either access. -/
theorem misalignedAccessRefused : Obligations.MisalignedAccessRefused := by
  intro s a v rest h
  have ha : isAligned a = false := beq_false_of_ne h
  refine ⟨fun hr => ?_, fun hw => ?_⟩
  · rw [step_cons hr, runEvent, hostRead, ha]
    rfl
  · rw [step_cons hw, runEvent, hostWrite, ha]
    rfl

end Sys2Proof.Machine

/-! ## The requests of a command and their failure (R105 to R109, R403, R405, R461) -/

namespace Sys2Proof.Machine

open Sys2Proof.Spec

variable {s t : State} {r : Request} {k : Block → Prog} {a : Answer} {rest : List Answer} {kind : StoreFailure}

/-! ### Lengths of computed blocks -/

theorem xorBlock_length_le (x y : Block) : (xorBlock x y).length ≤ y.length := by simp [xorBlock]

theorem scaleBlock_length (x : Block) (c : Byte) : (scaleBlock x c).length = x.length := by simp [scaleBlock]

theorem pParity_length_le (len : Nat) (ds : List Block) : (pParity len ds).length ≤ len := by
  induction ds with
  | nil => simp [pParity, zeroBlock]
  | cons d ds ih => exact (xorBlock_length_le d _).trans ih

theorem qParityFrom_length_le (len j : Nat) (ds : List Block) : (qParityFrom len j ds).length ≤ len := by
  induction ds generalizing j with
  | nil => simp [qParityFrom, zeroBlock]
  | cons d ds ih => exact (xorBlock_length_le _ _).trans (ih (j + 1))

theorem qParity_length_le (len : Nat) (ds : List Block) : (qParity len ds).length ≤ len :=
  qParityFrom_length_le len 0 ds

theorem qUpdate_length_le (old new par : Block) (k : Int) : (qUpdate old new par k).length ≤ new.length :=
  (xorBlock_length_le _ _).trans_eq (scaleBlock_length new _)

theorem solveBlocks_fst_length_le (ab : Byte × Byte) (pd qd : Block) :
    (solveBlocks ab pd qd).1.length ≤ pd.length := by simp [solveBlocks]

theorem solveBlocks_snd_length_le (ab : Byte × Byte) (pd qd : Block) :
    (solveBlocks ab pd qd).2.length ≤ pd.length := by simp [solveBlocks]

/-! ### Every request lies inside CFG (R461) -/

/-- Every request the program makes lies inside CFG, however it goes on. -/
abbrev Prog.StaysInside (s : State) (p : Prog) : Prop := p.All (fun _ => True) (fun _ _ _ => True) (InsideCfg s)

variable {d stripe off len : Nat} {bytes : Block}

theorem inside_ite {c : Prop} [Decidable c] {p q : Prog} (hp : p.StaysInside s) (hq : q.StaysInside s) :
    (if c then p else q).StaysInside s := by
  split <;> assumption

theorem inside_readBlock {f : Block → Prog} (hd : d < s.n) (hs : stripe < s.nb) (h : ∀ b, (f b).StaysInside s) :
    (bsRead d stripe 0 s.bs f).StaysInside s :=
  all_bsRead ⟨hd, hs, (Nat.zero_add s.bs).le⟩ h

theorem inside_write {p : Prog} (hd : d < s.n) (hs : stripe < s.nb) (ho : off + len ≤ s.bs) (hl : bytes.length ≤ len)
    (h : p.StaysInside s) : (bsWrite d stripe off bytes p).StaysInside s :=
  all_bsWrite ⟨hd, hs, (Nat.add_le_add_left hl off).trans ho⟩ h

theorem inside_writeBlock {p : Prog} (hd : d < s.n) (hs : stripe < s.nb) (hl : bytes.length ≤ s.bs)
    (h : p.StaysInside s) : (bsWrite d stripe 0 bytes p).StaysInside s :=
  inside_write hd hs (Nat.zero_add s.bs).le hl h

theorem inside_readDataDisks {skip : List Nat} {f : List Block → Prog} (hs : stripe < s.nb)
    (h : ∀ ds, (f ds).StaysInside s) : (readData s.bs stripe skip (dataDisks s.n stripe) f).StaysInside s :=
  all_readData _ (fun _ hd => ⟨(mem_dataDisks.1 hd).1, hs, (Nat.zero_add s.bs).le⟩) fun ds _ => h ds

theorem inside_putRecompute {o : OperandsXfer} (hn : 3 ≤ s.n) (hd : o.d < s.n) (hs : stripe < s.nb)
    (ho : off + o.len ≤ s.bs) : (putRecompute s o stripe off).StaysInside s :=
  inside_readDataDisks hs fun _ => all_withBuffer fun x hx =>
    inside_write hd hs ho (s.bufBytes_length hx).le <|
    inside_writeBlock (parityDisk_lt (by omega) _ _) hs (pParity_length_le _ _) <|
    inside_writeBlock (parityDisk_lt (by omega) _ _) hs (qParity_length_le _ _) trivial

theorem inside_putIncremental {o : OperandsXfer} (hn : 3 ≤ s.n) (hd : o.d < s.n) (hs : stripe < s.nb)
    (ho : off + o.len ≤ s.bs) : (putIncremental s o stripe off).StaysInside s := by
  have hpar (p : Nat) : parityDisk s.n stripe p < s.n := parityDisk_lt (by omega) _ _
  refine all_bsRead ⟨hd, hs, ho⟩ fun old => all_bsRead ⟨hpar 0, hs, ho⟩ fun oldP =>
    all_bsRead ⟨hpar 1, hs, ho⟩ fun oldQ => all_withBuffer fun x hx => ?_
  have hlen : x.length ≤ o.len := (s.bufBytes_length hx).le
  exact inside_write hd hs ho hlen <| inside_write (hpar 0) hs ho ((xorBlock_length_le _ _).trans hlen) <|
    inside_write (hpar 1) hs ho ((qUpdate_length_le _ _ _ _).trans hlen) trivial

theorem inside_checkFrom (hn : 3 ≤ s.n) (left stripe : Nat) (h : stripe + left ≤ s.nb) :
    (checkFrom s.n s.bs left stripe).StaysInside s := by
  induction left generalizing stripe with
  | zero => trivial
  | succ left ih =>
    have hs : stripe < s.nb := by omega
    exact inside_readDataDisks hs fun _ => inside_readBlock (parityDisk_lt (by omega) _ _) hs fun _ =>
      inside_readBlock (parityDisk_lt (by omega) _ _) hs fun _ =>
      inside_ite trivial (ih (stripe + 1) (by omega))

theorem inside_recSingleData (s : State) : (recSingleDataProgram s).StaysInside s := by
  refine all_recoveryChecksOne (fun hn hd hs => all_whenRole (fun _ => ?_) fun _ => trivial) fun _ _ _ => trivial
  exact inside_readDataDisks hs fun _ => inside_readBlock (parityDisk_lt (by omega) _ _) hs fun _ =>
    inside_writeBlock hd hs ((xorBlock_length_le _ _).trans (pParity_length_le _ _)) trivial

theorem inside_recSingleParity (s : State) : (recSingleParityProgram s).StaysInside s := by
  refine all_recoveryChecksOne (fun _ hd hs => all_whenRole (fun _ => ?_) fun _ => trivial) fun _ _ _ => trivial
  refine inside_readDataDisks hs fun ds => inside_writeBlock hd hs ?_ trivial
  split
  · exact pParity_length_le _ _
  · exact qParity_length_le _ _

theorem inside_recDoubleData (s : State) : (recDoubleDataProgram s).StaysInside s := by
  refine all_recoveryChecksTwo (fun hn h0 h1 _ hs => all_whenRole (fun _ => all_whenRole (fun _ => ?_)
    fun _ => trivial) fun _ => trivial) fun _ _ _ => trivial
  refine inside_readDataDisks hs fun ds => inside_readBlock (parityDisk_lt (by omega) _ _) hs fun pb =>
    inside_readBlock (parityDisk_lt (by omega) _ _) hs fun qb => ?_
  split
  · trivial
  · have hpd : (xorBlock pb (pParity s.bs ds)).length ≤ s.bs := (xorBlock_length_le _ _).trans (pParity_length_le _ _)
    exact inside_writeBlock h0 hs ((solveBlocks_fst_length_le _ _ _).trans hpd) <|
      inside_writeBlock h1 hs ((solveBlocks_snd_length_le _ _ _).trans hpd) trivial

theorem inside_recDoubleParity (s : State) : (recDoubleParityProgram s).StaysInside s := by
  refine all_recoveryChecksTwo (fun hn _ _ _ hs => all_whenRole (fun _ => all_whenRole (fun _ => ?_)
    fun _ => trivial) fun _ => trivial) fun _ _ _ => trivial
  exact inside_readDataDisks hs fun ds =>
    inside_writeBlock (parityDisk_lt (by omega) _ _) hs (pParity_length_le _ _) <|
    inside_writeBlock (parityDisk_lt (by omega) _ _) hs (qParity_length_le _ _) trivial

theorem inside_recDataAndParity (s : State) : (recDataAndParityProgram s).StaysInside s := by
  refine all_recoveryChecksTwo (fun hn h0 h1 _ hs => all_whenRole (fun _ => ?_) fun _ => trivial) fun _ _ _ => trivial
  have hdd {c : Prop} [Decidable c] {x y : Nat} (hx : x < s.n) (hy : y < s.n) : (if c then x else y) < s.n := by
    split <;> assumption
  refine inside_readDataDisks hs fun ds => inside_ite ?_ ?_
  · exact inside_readBlock (parityDisk_lt (by omega) _ _) hs fun pb =>
      inside_writeBlock (hdd h1 h0) hs ((xorBlock_length_le _ _).trans (pParity_length_le _ _)) <|
      inside_writeBlock (hdd h0 h1) hs (qParity_length_le _ _) trivial
  · exact inside_readBlock (parityDisk_lt (by omega) _ _) hs fun qb =>
      inside_writeBlock (hdd h1 h0) hs
        ((scaleBlock_length _ _).trans_le ((xorBlock_length_le _ _).trans (qParity_length_le _ _))) <|
      inside_writeBlock (hdd h0 h1) hs (pParity_length_le _ _) trivial

/-- Every request of every command lies inside CFG: the checks of R310 and R360 bound the disk and the stripe, and no computed
block is longer than the place it is written to. -/
theorem program_inside (i : Instr) (s : State) : (program i s).StaysInside s := by
  cases i with
  | gfMul => trivial
  | gfPow => trivial
  | gfInv =>
    simp only [program, gfInvProgram]
    split <;> trivial
  | gfSolve2 =>
    simp only [program, gfSolve2Program]
    refine inside_ite trivial ?_
    split <;> trivial
  | blkXor =>
    exact all_blockChecks (fun _ => all_withBuffer fun _ _ => all_withBuffer fun _ _ => trivial) fun _ => trivial
  | blkScale => exact all_blockChecks (fun _ => all_withBuffer fun _ _ => trivial) fun _ => trivial
  | parComputeP => exact all_blockChecks (fun _ => all_withBuffers _ _ fun _ _ => trivial) fun _ => trivial
  | parComputeQ => exact all_blockChecks (fun _ => all_withBuffers _ _ fun _ _ => trivial) fun _ => trivial
  | parUpdateP =>
    exact all_blockChecks (fun _ => all_withBuffer fun _ _ => all_withBuffer fun _ _ => all_withBuffer fun _ _ =>
      trivial) fun _ => trivial
  | parUpdateQ =>
    exact all_blockChecks (fun _ => all_withBuffer fun _ _ => all_withBuffer fun _ _ => all_withBuffer fun _ _ =>
      trivial) fun _ => trivial
  | layPdiskP => exact all_whenConfigured (fun _ => all_whenStripe (fun _ => trivial) fun _ => trivial) fun _ => trivial
  | layPdiskQ => exact all_whenConfigured (fun _ => all_whenStripe (fun _ => trivial) fun _ => trivial) fun _ => trivial
  | layIspar =>
    exact all_whenConfigured (fun _ => all_whenDisk (fun _ => all_whenStripe (fun _ => inside_ite trivial trivial)
      fun _ => trivial) fun _ => trivial) fun _ => trivial
  | layResolve =>
    exact all_whenConfigured (fun _ => all_whenDisk (fun _ => inside_ite trivial trivial) fun _ => trivial)
      fun _ => trivial
  | init => exact inside_ite trivial (inside_ite trivial trivial)
  | put =>
    unfold program putProgram
    refine all_transferChecks (fun stripe off hn hd _ hs ho => ?_) fun _ _ _ => trivial
    split
    · exact inside_putRecompute hn hd hs ho
    · exact inside_putIncremental hn hd hs ho
  | putraw =>
    unfold program putrawProgram
    exact all_transferChecks (fun _ _ _ hd _ hs ho => all_withBuffer fun x hx =>
      inside_write hd hs ho (s.bufBytes_length hx).le trivial) fun _ _ _ => trivial
  | get =>
    unfold program getProgram
    exact all_transferChecks (fun _ _ _ hd _ hs ho => all_bsRead ⟨hd, hs, ho⟩ fun _ => trivial) fun _ _ _ => trivial
  | recSingleData => exact inside_recSingleData s
  | recSingleParity => exact inside_recSingleParity s
  | recDoubleData => exact inside_recDoubleData s
  | recDoubleParity => exact inside_recDoubleParity s
  | recDataAndParity => exact inside_recDataAndParity s
  | check =>
    exact all_whenConfigured (fun hn => inside_checkFrom hn s.nb 0 (Nat.zero_add s.nb).le) fun _ => trivial

/-- So does a request after any responses. -/
theorem resume_inside {i : Instr} {h : List Response} (hp : (program i s).resume h = .ask r k) : InsideCfg s r := by
  have hall := (program_inside i s).resume h
  rw [hp] at hall
  exact hall.1

/-! ### A provisioned store (R461) -/

theorem inGeometry_congr (h : t.geometry = s.geometry) (r : Request) : t.inGeometry r = s.inGeometry r := by
  simp only [State.inGeometry, h]

theorem respond_fail {f : StoreFailure} (h : (s.respond r a).2 = some (.fail f)) : s.verdict r a = .fail f := by
  rcases s.respond_cases r a with e | ⟨f', hv, e⟩ | e <;> rw [e] at h <;> cases h
  exact hv

/-- A provisioned store does not answer FAIL(BOUNDS) to a request inside CFG (R461(a)). -/
theorem receive_ne_bounds (hb : s.busy = true) (hp : s.Provisioned) (hr : InsideCfg s r) :
    (s.receive r).2 ≠ some (.fail .bounds) := by
  obtain ⟨hd, hblk, hoff⟩ := hr
  have hgeo : s.takeAnswer.2.geometry = s.geometry := s.takeAnswer_same.geometry
  have hin : s.takeAnswer.2.inGeometry r = true :=
    (inGeometry_congr hgeo r).trans ((hp.covers hb).inGeometry hd hblk hoff)
  have hsome : s.takeAnswer.2.geometry.isSome = true := by rw [hgeo, hp hb]; rfl
  exact fun h => s.takeAnswer.2.verdict_ne_bounds r _ hsome hin (respond_fail h)

/-! ### The failure of a request (R106, R107, R109) -/

theorem verdict_of_storeFails (h : StoreFails s r a kind) : s.verdict r a = .fail kind := by
  rcases h with ⟨rfl, hk⟩ | ⟨rfl, rfl, hg⟩
  · cases kind with
    | io => rfl
    | config => rfl
    | bounds => rcases hk rfl with hg | hg <;> simp [State.verdict, hg]
  · simp [State.verdict, hg]

/-- A byte of the store outside what a request inside CFG writes has a key outside the request's. -/
theorem not_covers_of_untouched {d blk off : Nat} (hr : InsideCfg s r) (hb : blk < 2 ^ 32) (ho : off < 2 ^ 32)
    (hu : Untouched r d blk off) : ¬r.Covers (diskKey d blk off) := by
  rintro ⟨hw, hlo, hhi⟩
  obtain ⟨-, hblk, hend⟩ := hr
  have hnb : s.nb < 2 ^ 32 := s.cfgNblocks.isLt
  have hbs : s.bs < 2 ^ 32 := s.cfgBsize.isLt
  refine hu hw ?_
  simp only [diskKey] at hlo hhi
  simp only [InRange]
  omega

theorem spoil_diskByte {d blk off : Nat} (hr : InsideCfg s r) (hb : blk < 2 ^ 32) (ho : off < 2 ^ 32)
    (hu : Untouched r d blk off) : (s.spoil r).diskByte d blk off = s.diskByte d blk off := by
  simp only [State.diskByte, s.spoil_disk r (not_covers_of_untouched hr hb ho hu)]

/-- The state after a failed request (R76, R106, R107): an error completion with the request's disk and block as context, one
answer used, and the target bytes of a WRITE open. -/
def State.storeFailed (s : State) (r : Request) (kind : StoreFailure) (rest : List Answer) : State :=
  { (s.spoil r).failed (storeError kind) (BitVec.ofNat 32 r.disk) (BitVec.ofNat 32 r.block) with answers := rest }

theorem storeFailed_eq (s : State) (r : Request) (kind : StoreFailure) (rest : List Answer) :
    s.storeFailed r kind rest =
      { s.failed (storeError kind) (BitVec.ofNat 32 r.disk) (BitVec.ofNat 32 r.block) with
        answers := rest, disk := (s.storeFailed r kind rest).disk, draws := (s.storeFailed r kind rest).draws } := by
  cases r <;> rfl

/-- A READ that fails leaves the store and its free values alone (R106). -/
theorem storeFailed_read (h : r.isWrite = false) :
    (s.storeFailed r kind rest).disk = s.disk ∧ (s.storeFailed r kind rest).draws = s.draws := by
  cases r with
  | read => exact ⟨rfl, rfl⟩
  | write => cases h

theorem run_ask_storeFails (ha : s.answers = a :: rest) (hf : StoreFails s r a kind) :
    (Prog.ask r k).run s = .next (s.storeFailed r kind rest) :=
  run_ask_fail ha (verdict_of_storeFails hf)

/-- The command whose next request the store fails ends there. -/
theorem exec_storeFails {i : Instr} (hns : s.isStalled = false) (hp : (program i s).resume s.history = .ask r k)
    (ha : s.answers = a :: rest) (hf : StoreFails s r a kind) : exec i s = .next (s.storeFailed r kind rest) := by
  rw [exec_eq_runCommand, runCommand, hns, hp]
  exact run_ask_storeFails ha hf

end Sys2Proof.Machine

/-! ## A RECOMPUTE PUT up to its parity (R360, R362) -/

namespace Sys2Proof.Machine

open Sys2Proof.Spec

variable {s : State}

/-! ### The checks of a transfer (R360) -/

/-- What it is to pass every check of R360. -/
theorem transferError_eq_none : transferError s = none ↔
    3 ≤ s.n ∧ s.u 0 < s.n ∧ 1 ≤ s.u 2 ∧ s.u 3 < s.params.nbuf ∧ (target s).1 < s.nb ∧
      (target s).2 + s.u 2 ≤ s.bs := by
  unfold transferError
  split_ifs <;> simp only [false_iff, true_iff] <;> omega

/-- A transfer that passes its checks goes on with the stripe and the offset it resolves to. -/
theorem transferChecks_pass (h : transferError s = none) (k : Nat → Nat → Prog) :
    transferChecks s s.operandsXfer k = k (target s).1 (target s).2 := by
  obtain ⟨hn, hd, hlen, hbuf, hs, ho⟩ := transferError_eq_none.1 h
  have hlen' : ¬(s.u 2 = 0 ∨ s.bs < s.u 2) := by omega
  simp only [target] at hs ho
  simp only [transferChecks, whenConfigured, whenDisk, State.operandsXfer, target, Nat.not_lt.2 hn, Nat.not_le.2 hd,
    hlen', Nat.not_le.2 hbuf, Nat.not_le.2 hs, Nat.not_lt.2 ho, if_false]

/-- An operand whose bytes all have a value is handed on (R242). -/
theorem withBuffer_holds {b len : Nat} {x : Nat → Byte} (h : Holds s b len x) (k : Block → Prog) :
    withBuffer s b len k = k (bytesOf len x) := by
  have hx : s.bufBytes b 0 len = some (bytesOf len x) :=
    State.bufBytes_of_values fun j hj => by rw [Nat.zero_add]; exact h j hj
  rw [withBuffer, hx]

/-! ### Answers of OK (U5) -/

theorem State.AnswersOk.mono {j k : Nat} (h : s.AnswersOk k) (hj : j ≤ k) : s.AnswersOk j := by
  have hj' := congrArg (List.take j) h
  rwa [List.take_take, List.take_replicate, Nat.min_eq_left hj] at hj'

theorem State.AnswersOk.drop {k : Nat} (h : s.AnswersOk (k + 1)) :
    s.answers.drop k = .ok :: s.answers.drop (k + 1) := by
  have hget := congrArg (·[k]?) h
  simp only [List.getElem?_take_of_lt (Nat.lt_succ_self k), List.getElem?_replicate_of_lt (Nat.lt_succ_self k)] at hget
  obtain ⟨hk, hk'⟩ := List.getElem?_eq_some_iff.1 hget
  rw [List.drop_eq_getElem_cons hk, hk']

/-! ### The blocks of the stripe and the data write (R362) -/

/-- A stripe has n - 2 data disks (R283). -/
theorem length_dataDisks {n : Nat} (hn : 2 ≤ n) (s : Nat) : (dataDisks n s).length = n - 2 := by
  have hP := parityDisk_lt (n := n) (by omega) s 0
  have hQ := parityDisk_lt (n := n) (by omega) s 1
  refine (length_filter_range (parityDisk_ne hn s) n).trans ?_
  rw [if_pos hP, if_pos hQ, Nat.sub_sub]

/-- The data blocks of the stripe of a transfer, with the bytes of the operand put in (R362). -/
def State.overwritten (s : State) (x : Block) : List Block :=
  (s.stripeData (target s).1).modify (ordinal s.n (s.u 0) (target s).1) fun d => overwrite d (target s).2 x

/-- The last two writes of a RECOMPUTE PUT: P and Q of the stripe with these data blocks (R362). -/
def putParityWrites (s : State) (new : List Block) : Prog :=
  bsWrite (pDisk s (target s).1) (target s).1 0 (pParity s.bs new) <|
  bsWrite (qDisk s (target s).1) (target s).1 0 (qParity s.bs new) <|
  transferDone (target s).1 (target s).2

/-- `read_data` of a whole stripe with OK answers: its n - 2 data blocks (R311). -/
theorem run_readStripe {stripe : Nat} {k : List Block → Prog} (hn : 2 ≤ s.n) (hc : s.StoreCovers) (hs : stripe < s.nb)
    (ha : s.AnswersOk (s.n - 2)) :
    ∃ q, (readData s.bs stripe [] (dataDisks s.n stripe) k).run s =
      (k (s.stripeData stripe)).run { s with answers := s.answers.drop (s.n - 2), seq := q } := by
  have hcount : readCount [] (dataDisks s.n stripe) = s.n - 2 := by
    simpa [readCount] using length_dataDisks hn stripe
  obtain ⟨q, hq⟩ := run_readData (skip := []) (dataDisks s.n stripe) (k := k) hc (fun d hd => (mem_dataDisks.1 hd).1) hs
    (hcount.symm ▸ ha)
  rw [hcount] at hq
  exact ⟨q, hq⟩

/-- With n - 2 answers of OK a RECOMPUTE PUT has read the data of its stripe, and goes on to its operand. -/
theorem run_putRecompute_reads (hstart : s.Started) (hm : s.params.putParityMode = .recompute)
    (he : transferError s = none) (hc : s.StoreCovers) (ha : s.AnswersOk (s.n - 2)) :
    ∃ q, exec .put s =
      (withBuffer s (s.u 3) (s.u 2) fun x =>
        bsWrite (s.u 0) (target s).1 (target s).2 x (putParityWrites s (s.overwritten x))).run
      { s with answers := s.answers.drop (s.n - 2), seq := q } := by
  obtain ⟨hn, -, -, -, hs, -⟩ := transferError_eq_none.1 he
  rw [exec_started _ hstart, program, putProgram, transferChecks_pass he, hm]
  exact run_readStripe (by omega) hc hs ha

/-- A RECOMPUTE PUT that has written its data, with n - 1 answers used (R362). -/
def State.dataWritten (s : State) (x : Block) (q : Sequencer) : State :=
  { s.stored (s.u 0) (target s).1 (target s).2 x with answers := s.answers.drop (s.n - 1), seq := q }

/-- With one answer of OK more it has written its data, and P is the next to write. -/
theorem run_putRecompute_data (hstart : s.Started) (hm : s.params.putParityMode = .recompute)
    (he : transferError s = none) (hc : s.StoreCovers) (ha : s.AnswersOk (s.n - 1)) {x : Nat → Byte}
    (hx : Holds s (s.u 3) (s.u 2) x) :
    ∃ q, exec .put s =
      (putParityWrites s (s.overwritten (bytesOf (s.u 2) x))).run (s.dataWritten (bytesOf (s.u 2) x) q) := by
  obtain ⟨hn, hd, -, -, hs, ho⟩ := transferError_eq_none.1 he
  have hlast : s.n - 1 = s.n - 2 + 1 := by omega
  have hnext : s.answers.drop (s.n - 2) = .ok :: s.answers.drop (s.n - 1) := by
    rw [hlast] at ha ⊢
    exact ha.drop
  obtain ⟨q, hq⟩ := run_putRecompute_reads hstart hm he hc (ha.mono (by omega))
  rw [withBuffer_holds hx] at hq
  have hin : s.inGeometry (.write (s.u 0) (target s).1 (target s).2 (bytesOf (s.u 2) x)) = true :=
    hc.inGeometry hd hs (by rw [Request.len, bytesOf_length]; exact ho)
  exact ⟨_, hq.trans (run_bsWrite (s := { s with answers := s.answers.drop (s.n - 2), seq := q }) hnext hin)⟩

/-- The WRITE of P in a RECOMPUTE PUT (R362). -/
def parityWrite (s : State) (new : List Block) : Request :=
  .write (pDisk s (target s).1) (target s).1 0 (pParity s.bs new)

theorem run_putParityWrites_fails {u : State} {kind : StoreFailure} {rest : List Answer}
    (ha : u.answers = .fail kind :: rest) (hk : kind = .bounds → u.geometry = none) (new : List Block) :
    (putParityWrites s new).run u = .next (u.storeFailed (parityWrite s new) kind rest) :=
  run_ask_storeFails ha (.inl ⟨rfl, fun h => .inl (hk h)⟩)

/-- The WRITE of P leaves every byte alone outside P's block. -/
theorem untouched_parityWrite {new : List Block} {d blk off : Nat}
    (h : ¬InRange d blk off (pDisk s (target s).1, (target s).1, 0, s.bs)) :
    Untouched (parityWrite s new) d blk off := by
  rintro - ⟨hd, hblk, hlo, hhi⟩
  exact h ⟨hd, hblk, hlo, hhi.trans_le (Nat.add_le_add_left (pParity_length_le _ _) 0)⟩

/-- A PUT whose P write fails (R362, R107): the data write stands, and Q is not written. -/
theorem put_parity_write_fails (hstart : s.Started) (hm : s.params.putParityMode = .recompute)
    (he : transferError s = none) (hc : s.StoreCovers) {kind : StoreFailure} {rest : List Answer}
    (ha : s.answers = List.replicate (s.n - 1) Answer.ok ++ .fail kind :: rest)
    (hk : kind = .bounds → s.geometry = none) {x : Nat → Byte} (hx : Holds s (s.u 3) (s.u 2) x) :
    let st := (target s).1
    ∃ t, exec .put s = .next t ∧
      t = { s.failed (storeError kind) (BitVec.ofNat 32 (pDisk s st)) (BitVec.ofNat 32 st) with
            answers := rest, disk := t.disk, draws := t.draws } ∧
      ∀ d blk off, blk < 2 ^ 32 → off < 2 ^ 32 → ¬InRange d blk off (pDisk s st, st, 0, s.bs) →
        t.diskByte d blk off = (s.stored (s.u 0) st (target s).2 (bytesOf (s.u 2) x)).diskByte d blk off := by
  intro st
  obtain ⟨hn, -, -, -, hs, -⟩ := transferError_eq_none.1 he
  have hok : s.AnswersOk (s.n - 1) := by
    unfold State.AnswersOk
    rw [ha, List.take_left' List.length_replicate]
  obtain ⟨q, hrun⟩ := run_putRecompute_data hstart hm he hc hok hx
  have hfail : (s.dataWritten (bytesOf (s.u 2) x) q).answers = .fail kind :: rest := by
    rw [State.dataWritten, ha, List.drop_left' List.length_replicate]
  have hinside : InsideCfg (s.dataWritten (bytesOf (s.u 2) x) q) (parityWrite s (s.overwritten (bytesOf (s.u 2) x))) :=
    ⟨parityDisk_lt (by omega) _ _, hs, (Nat.zero_add _).trans_le (pParity_length_le _ _)⟩
  refine ⟨_, hrun.trans (run_putParityWrites_fails hfail hk _), ?_, fun d blk off hb hoff hout => ?_⟩
  · exact storeFailed_eq (s.dataWritten (bytesOf (s.u 2) x) q) _ kind rest
  · exact spoil_diskByte hinside hb hoff (untouched_parityWrite hout)

/-- Settles O28: a failed request ends the command where it stands; every request lies inside CFG; and a PUT whose P write fails
has the data written before it. -/
theorem storeFailureCompletes : Obligations.StoreFailureCompletes := by
  refine ⟨fun i s r k a rest kind hns hp ha hf => ?_, fun i s h r k hp => ?_,
    fun s hstart hm he hc k rest ha hk x hx => put_parity_write_fails hstart hm he hc ha hk hx⟩
  · exact ⟨_, exec_storeFails hns hp ha hf, storeFailed_eq s r kind rest, storeFailed_read,
      fun d blk off => spoil_diskByte (resume_inside hp)⟩
  · have hr := resume_inside hp
    exact ⟨hr, fun hb hprov => receive_ne_bounds hb hprov hr⟩

end Sys2Proof.Machine

/-! ## Command words and commands (R140, R143, R144, R147) -/

namespace Sys2Proof

variable {w : Word} {i : Instr} {r : OpcodeRow}

/-! ### The rows of the opcode map and the words they accept (R144) -/

/-- A row compares the whole word with the word of its command. -/
theorem opcodeTable_rows : ∀ r ∈ opcodeTable, r.mask = BitVec.allOnes 32 ∧ r.pattern = encode r.instr := by decide

theorem OpcodeRow.accepts_iff (hr : r ∈ opcodeTable) : r.accepts w = true ↔ w = encode r.instr := by
  obtain ⟨hmask, hpat⟩ := opcodeTable_rows r hr
  rw [OpcodeRow.accepts, hmask, hpat, BitVec.and_allOnes, beq_iff_eq]

/-- The rows list exactly the opcodes that R147 does not list as unassigned. -/
theorem Word.opcodeAssigned_iff (w : Word) :
    w.opcodeAssigned = true ↔ (w.extractLsb' 0 8).toNat ∈ opcodeTable.map fun r => opcode r.instr := by
  have hcodes : (opcodeTable.map fun r => opcode r.instr) =
      [0x01, 0x02, 0x03, 0x04, 0x10, 0x11, 0x12, 0x13, 0x14, 0x15, 0x20, 0x21, 0x22, 0x23, 0x30, 0x31, 0x32, 0x33,
       0x40, 0x41, 0x42, 0x43, 0x44, 0x48] := rfl
  simp only [hcodes, Word.opcodeAssigned, Bool.or_eq_true, Bool.and_eq_true, decide_eq_true_eq, beq_iff_eq,
    List.mem_cons, List.not_mem_nil, or_false]
  omega

theorem Word.reservedClear_iff (w : Word) : w.reservedClear = true ↔ w.extractLsb' 8 24 = 0#24 := beq_iff_eq

/-! ### Decoding and encoding (R143, R147) -/

/-- The word of every command is well formed and decodes to it, constructor by constructor. -/
theorem roundTrip : ∀ i, Laws.RoundTrip.Statement i
  | .gfMul => Laws.RoundTrip.gfMul
  | .gfPow => Laws.RoundTrip.gfPow
  | .gfInv => Laws.RoundTrip.gfInv
  | .gfSolve2 => Laws.RoundTrip.gfSolve2
  | .blkXor => Laws.RoundTrip.blkXor
  | .blkScale => Laws.RoundTrip.blkScale
  | .parComputeP => Laws.RoundTrip.parComputeP
  | .parComputeQ => Laws.RoundTrip.parComputeQ
  | .parUpdateP => Laws.RoundTrip.parUpdateP
  | .parUpdateQ => Laws.RoundTrip.parUpdateQ
  | .layPdiskP => Laws.RoundTrip.layPdiskP
  | .layPdiskQ => Laws.RoundTrip.layPdiskQ
  | .layIspar => Laws.RoundTrip.layIspar
  | .layResolve => Laws.RoundTrip.layResolve
  | .init => Laws.RoundTrip.init
  | .put => Laws.RoundTrip.put
  | .putraw => Laws.RoundTrip.putraw
  | .get => Laws.RoundTrip.get
  | .recSingleData => Laws.RoundTrip.recSingleData
  | .recSingleParity => Laws.RoundTrip.recSingleParity
  | .recDoubleData => Laws.RoundTrip.recDoubleData
  | .recDoubleParity => Laws.RoundTrip.recDoubleParity
  | .recDataAndParity => Laws.RoundTrip.recDataAndParity
  | .check => Laws.RoundTrip.check

@[simp] theorem encode_wellFormed (i : Instr) : (encode i).wellFormed = true := (roundTrip i).1

@[simp] theorem decode_encode (i : Instr) : decode (encode i) = .ok i := (roundTrip i).2

theorem decode_of_reserved (h : w.reservedClear = false) : decode w = .error .reservedBits := by
  simp [decode, h]

/-- With the reserved bits 0 a word is refused for its opcode or decodes to the command whose word it is. -/
theorem decode_of_reservedClear (h : w.reservedClear = true) :
    decode w = .error .unassignedOpcode ∨ ∃ i, decode w = .ok i ∧ w = encode i := by
  rw [decode, if_pos h]
  split
  case h_1 r hfind =>
    have haccepts : r.accepts w = true := List.find?_some (p := fun q : OpcodeRow => q.accepts w) hfind
    exact .inr ⟨r.instr, rfl, (OpcodeRow.accepts_iff (List.mem_of_find?_eq_some hfind)).1 haccepts⟩
  case h_2 => exact .inl rfl

theorem decode_eq_ok_iff : decode w = .ok i ↔ w = encode i := by
  refine ⟨fun h => ?_, fun h => h ▸ decode_encode i⟩
  cases hr : w.reservedClear with
  | false => rw [decode_of_reserved hr] at h; cases h
  | true =>
    rcases decode_of_reservedClear hr with herr | ⟨j, hj, rfl⟩
    · rw [herr] at h; cases h
    · rw [hj] at h; cases h; rfl

/-- A word with the reserved bits 0 and the opcode of a command in bits 7:0 is that command's word (R140). -/
theorem eq_encode_of_fields (hr : w.extractLsb' 8 24 = 0#24) (ho : opcode i = (w.extractLsb' 0 8).toNat) :
    w = encode i := by
  rw [encode, ho, BitVec.ofNat_toNat, BitVec.setWidth_eq, ← hr]
  have hsplit := BitVec.extractLsb'_append_extractLsb'_eq_extractLsb' (x := w) (start₁ := 0) (len₁ := 8) (len₂ := 24) rfl
  exact (hsplit.trans BitVec.extractLsb'_eq_self).symm

theorem Word.wellFormed_iff (w : Word) : w.wellFormed = true ↔ ∃ i, w = encode i := by
  refine ⟨fun h => ?_, fun ⟨i, hi⟩ => hi ▸ encode_wellFormed i⟩
  obtain ⟨hr, ho⟩ := (Bool.and_eq_true _ _).mp h
  obtain ⟨r, -, hop⟩ := List.mem_map.1 (w.opcodeAssigned_iff.1 ho)
  exact ⟨r.instr, eq_encode_of_fields (w.reservedClear_iff.1 hr) hop⟩

theorem exists_decode_iff (w : Word) : (∃ i, decode w = .ok i) ↔ w.wellFormed = true := by
  simp only [decode_eq_ok_iff, Word.wellFormed_iff]

/-- An ill-formed word with the reserved bits 0 is refused for its opcode. -/
theorem decode_of_unassigned (hr : w.reservedClear = true) (hw : w.wellFormed = false) :
    decode w = .error .unassignedOpcode := by
  rcases decode_of_reservedClear hr with herr | ⟨i, -, rfl⟩
  · exact herr
  · rw [encode_wellFormed] at hw; cases hw

/-- Settles O42: a row accepts the word of its command and no other, and the rows leave out R147's opcodes only. -/
theorem encodeDecodeAgree : Obligations.EncodeDecodeAgree :=
  ⟨decode_encode, fun _ _ => decode_eq_ok_iff.1, exists_decode_iff,
    fun w h => decode_of_reserved (Bool.eq_false_iff.2 (mt w.reservedClear_iff.1 h)),
    fun w h => decode_of_unassigned (w.reservedClear_iff.2 h)⟩

/-! ### Table words -/

theorem decode_of_decodeTableWord {nbits n : Nat} (h : decodeTableWord nbits n = some i) :
    decode (Machine.tableWord nbits n) = .ok i := by
  unfold decodeTableWord at h
  split at h
  case h_1 j hj => cases h; exact hj
  case h_2 => cases h

theorem decodeTableWord_of_encode {nbits n : Nat} (h : Machine.tableWord nbits n = encode i) :
    decodeTableWord nbits n = some i := by
  rw [decodeTableWord, show BitVec.ofNat 32 (n % 2 ^ nbits) = encode i from h, decode_encode]

theorem decodeTableWord_of_illFormed {nbits n : Nat} (h : (Machine.tableWord nbits n).wellFormed = false) :
    decodeTableWord nbits n = none := by
  rw [Option.eq_none_iff_forall_ne_some]
  intro i hi
  rw [(exists_decode_iff _).1 ⟨i, decode_of_decodeTableWord hi⟩] at h
  cases h

/-- Settles O43: the first six words are the words of their commands, the last three are ill formed. -/
theorem decodedWords : Obligations.DecodedWords :=
  ⟨decodeTableWord_of_encode rfl, decodeTableWord_of_encode rfl, decodeTableWord_of_encode rfl,
    decodeTableWord_of_encode rfl, decodeTableWord_of_encode rfl, decodeTableWord_of_encode rfl,
    decodeTableWord_of_illFormed rfl, decodeTableWord_of_illFormed rfl, decodeTableWord_of_illFormed rfl⟩

end Sys2Proof

/-! ## The step of a core in EXEC (R68, R73, R148, R150, R478) -/

namespace Sys2Proof.Machine

variable {s : State} {i : Instr} {e : DecodeError}

theorem commandProgram_of_illegal (hd : decode s.cmd = .error e) : s.commandProgram = illegalProgram := by
  simp only [State.commandProgram, hd]

theorem coreRun_busy (hb : s.busy = true) : coreRun s = runCommand s.commandProgram s := by
  rw [coreRun_eq, if_pos hb]

theorem coreRun_of_decode (hb : s.busy = true) (hd : decode s.cmd = .ok i) : coreRun s = exec i s := by
  rw [coreRun_busy hb, commandProgram_of_decode hd, exec_eq_runCommand]

theorem State.Started.busy (h : s.Started) : s.busy = true := by rw [State.busy, h]

/-- Settles O40: the program of an illegal word raises IllegalCommand at once, without context. -/
theorem illegalWordCompletes : Obligations.IllegalWordCompletes := by
  intro s e ha hs hd
  rw [step_nil ha, coreRun_busy hs.busy, commandProgram_of_illegal hd, runCommand_started _ hs, illegalProgram,
    Prog.run_raise]
  rfl

/-! ### The three moves that run the core, a placed word, and the end of a run -/

theorem step_poll_busy {rest : List Event} (ha : s.agenda = .poll :: rest) (hb : s.busy = true) :
    step s = coreRun s := by
  rw [step_cons ha, runEvent, pollEvent, if_pos hb]

theorem step_waitIrq_low {rest : List Event} (ha : s.agenda = .waitIrq :: rest) (hirq : s.irq = false) :
    step s = coreRun s := by
  simp [step_cons ha, runEvent, waitIrqEvent, hirq]

theorem withFetchWord_started (s : State) (nbits w : Nat) : (s.withFetchWord nbits w).Started := rfl

theorem step_withFetchWord {nbits w : Nat} (hd : decodeTableWord nbits w = some i) :
    step (s.withFetchWord nbits w) = exec i (s.withFetchWord nbits w) :=
  (step_nil rfl).trans (coreRun_of_decode (withFetchWord_started s nbits w).busy (decode_of_decodeTableWord hd))

theorem step_runEnded (h : s.runEnded = true) : step s = .next s := by
  obtain ⟨hagenda, hidle⟩ := (Bool.and_eq_true _ _).mp h
  rw [step_nil (List.isEmpty_iff.1 hagenda), coreRun_eq, if_neg (by simpa using hidle)]

/-- Settles O41: each of these moves is the core's turn, and its turn runs the program of the decoded command. -/
theorem stepRunsTheCommand : Obligations.StepRunsTheCommand :=
  ⟨fun _ _ hb hd =>
    ⟨fun ha => (step_nil ha).trans (coreRun_of_decode hb hd),
      fun _ ha => (step_poll_busy ha hb).trans (coreRun_of_decode hb hd),
      fun _ ha hirq => (step_waitIrq_low ha hirq).trans (coreRun_of_decode hb hd)⟩,
    fun s nbits w _ hd => ⟨step_withFetchWord hd, withFetchWord_started s nbits w⟩,
    fun _ => step_runEnded⟩

end Sys2Proof.Machine

/-! ## Arithmetic in GF(2^8) and its commands (R200 to R214) -/

namespace Sys2Proof.Machine

open Sys2Proof.Spec

/-! ### The loop of gf_mul (R201) -/

/-- An XOR that a bit decides is additive in the value and in the bit: reduction steps and accumulation steps both are. -/
theorem ite_xor_xor {w : Nat} (i j : Bool) (x y c : BitVec w) :
    (if (i ^^ j) = true then (x ^^^ y) ^^^ c else x ^^^ y) =
      (if i = true then x ^^^ c else x) ^^^ (if j = true then y ^^^ c else y) := by
  have swap : x ^^^ y ^^^ c = x ^^^ c ^^^ y := by rw [BitVec.xor_assoc, BitVec.xor_comm y, BitVec.xor_assoc]
  cases i <;> cases j
  · rfl
  · exact BitVec.xor_assoc x y c
  · exact swap
  · change x ^^^ y = x ^^^ c ^^^ (y ^^^ c)
    rw [← BitVec.xor_assoc, ← swap, BitVec.xor_assoc, BitVec.xor_self, BitVec.xor_zero]

theorem gfShift_xor (a b : Byte) : gfShift (a ^^^ b) = gfShift a ^^^ gfShift b := by
  rw [gfShift, BitVec.getLsbD_xor, BitVec.shiftLeft_xor_distrib, ite_xor_xor]
  rfl

theorem gfMulLoop_gfShift (n : Nat) (p aa bb : Byte) :
    gfMulLoop n (gfShift p) (gfShift aa) bb = gfShift (gfMulLoop n p aa bb) := by
  induction n generalizing p aa bb with
  | zero => rfl
  | succ n ih => rw [gfMulLoop, gfMulLoop, ← gfShift_xor, ← apply_ite gfShift, ih]

theorem gfMulLoop_xor_right (n : Nat) (p q aa b c : Byte) :
    gfMulLoop n (p ^^^ q) aa (b ^^^ c) = gfMulLoop n p aa b ^^^ gfMulLoop n q aa c := by
  induction n generalizing p q aa b c with
  | zero => rfl
  | succ n ih =>
    rw [gfMulLoop, BitVec.getLsbD_xor, ite_xor_xor, BitVec.ushiftRight_xor_distrib, ih]
    rfl

theorem gfMulLoop_zero_left (n : Nat) (bb : Byte) : gfMulLoop n 0#8 0#8 bb = 0#8 := by
  induction n generalizing bb with
  | zero => rfl
  | succ n ih => rw [gfMulLoop, BitVec.xor_self, ite_self]; exact ih _

/-- The loop adds up the shifts of the first operand that the bits of the second one select. -/
theorem gfMulLoop_eq_foldl (n : Nat) (p aa bb : Byte) :
    gfMulLoop n p aa bb =
      (List.range n).foldl (fun q i => if bb.getLsbD i then q ^^^ gfShift^[i] aa else q) p := by
  induction n generalizing p aa bb with
  | zero => rfl
  | succ n ih =>
    rw [gfMulLoop, ih, List.range_succ_eq_map, List.foldl_cons, List.foldl_map]
    simp only [BitVec.getLsbD_ushiftRight, Nat.add_comm 1, Nat.succ_eq_add_one, Function.iterate_succ_apply,
      Function.iterate_zero_apply]

/-! ### What the loop says of gf_mul -/

@[simp] theorem gfMul_zero_left (a : Byte) : gfMul 0#8 a = 0#8 := gfMulLoop_zero_left 8 a

theorem gfMul_xor_right (a b c : Byte) : gfMul a (b ^^^ c) = gfMul a b ^^^ gfMul a c :=
  gfMulLoop_xor_right 8 0#8 0#8 a b c

@[simp] theorem gfMul_zero_right (a : Byte) : gfMul a 0#8 = 0#8 := by
  simpa only [BitVec.xor_self] using gfMul_xor_right a 0#8 0#8

@[simp] theorem gfMul_one_right (a : Byte) : gfMul a 0x01#8 = a := BitVec.zero_xor

@[simp] theorem gfMul_one_left : ∀ a : Byte, gfMul 0x01#8 a = a := by decide +kernel

theorem gfMul_gfShift_left (a b : Byte) : gfMul (gfShift a) b = gfShift (gfMul a b) := gfMulLoop_gfShift 8 0#8 a b

theorem gfMul_iterate_gfShift (k : Nat) (b : Byte) : gfMul (gfShift^[k] 0x01#8) b = gfShift^[k] b := by
  have h : Function.Semiconj (gfMul · b) gfShift gfShift := fun a => gfMul_gfShift_left a b
  calc gfMul (gfShift^[k] 0x01#8) b = gfShift^[k] (gfMul 0x01#8 b) := h.iterate_right k 0x01#8
    _ = gfShift^[k] b := by rw [gfMul_one_left]

/-! ### Powers of the generator (R203, R204) -/

/-- The table EXP lists the iterated doublings of 1. -/
theorem expTable_eq_iterate : expTable = List.iterate gfShift 0x01#8 255 := by decide +kernel

/-- The order of g divides 255. -/
theorem gfShift_isPeriodicPt_one : Function.IsPeriodicPt gfShift 255 0x01#8 := by
  change gfShift^[255] 0x01#8 = 0x01#8
  decide +kernel

theorem expTable_length : expTable.length = 255 := by rw [expTable_eq_iterate, List.length_iterate]

theorem toNat_emod_lt (n : Int) : (n % 255).toNat < 255 := by omega

theorem expTable_getElem?_gfPow (n : Int) : expTable[(n % 255).toNat]? = some (gfPow n) := by
  have h : (n % 255).toNat < expTable.length := by rw [expTable_length]; exact toNat_emod_lt n
  rw [gfPow, List.getD_eq_getElem _ _ h, List.getElem?_eq_getElem h]

theorem gfPow_eq_iterate (n : Int) : gfPow n = gfShift^[(n % 255).toNat] 0x01#8 := by
  have h := expTable_getElem?_gfPow n
  rw [expTable_eq_iterate, List.getElem?_iterate _ _ _ _ (toNat_emod_lt n)] at h
  exact (Option.some.inj h).symm

theorem gfPow_congr {m n : Int} (h : m % 255 = n % 255) : gfPow m = gfPow n := by rw [gfPow, gfPow, h]

@[simp] theorem gfPow_zero : gfPow 0 = 0x01#8 := rfl

@[simp] theorem gfPow_one : gfPow 1 = 0x02#8 := rfl

/-- Exponents add: a product with a power of g is that many doublings. -/
theorem gfPow_add (m n : Int) : gfPow (m + n) = gfMul (gfPow m) (gfPow n) := by
  have hexp : ((m + n) % 255).toNat = ((m % 255).toNat + (n % 255).toNat) % 255 := by omega
  rw [gfPow_eq_iterate m, gfMul_iterate_gfShift, gfPow_eq_iterate n, ← Function.iterate_add_apply, gfPow_eq_iterate,
    hexp, gfShift_isPeriodicPt_one.iterate_mod_apply]

@[simp] theorem gfMul_gfPow_neg (n : Int) : gfMul (gfPow n) (gfPow (-n)) = 0x01#8 := by
  rw [← gfPow_add, Int.add_right_neg, gfPow_zero]

theorem gfPow_ne_zero (n : Int) : gfPow n ≠ 0#8 := by
  intro h
  have hone := gfMul_gfPow_neg n
  rw [h, gfMul_zero_left] at hone
  cases hone

/-! ### Exponents of bytes (R205) -/

theorem logTable_gfPow : ∀ i < 255, logTable.getD (gfPow (i : Nat)).toNat 0 = i := by decide +kernel

theorem expTable_logTable : ∀ a : Byte, a ≠ 0#8 → expTable.getD (logTable.getD a.toNat 0) 0#8 = a := by decide +kernel

theorem gfLog_zero : gfLog 0#8 = none := rfl

theorem gfLog_of_ne_zero {a : Byte} (h : a ≠ 0#8) : gfLog a = some (logTable.getD a.toNat 0) := if_neg h

/-- A place outside EXP reads as 0, so the exponent of a nonzero byte lies inside. -/
theorem logTable_lt {a : Byte} (h : a ≠ 0#8) : logTable.getD a.toNat 0 < 255 := by
  by_contra hge
  have hzero := expTable_logTable a h
  rw [List.getD_eq_default _ _ (by rw [expTable_length]; omega)] at hzero
  exact h hzero.symm

theorem gfPow_natCast {i : Nat} (h : i < 255) : gfPow i = expTable.getD i 0#8 := by
  rw [gfPow, show ((i : Int) % 255).toNat = i by omega]

/-- Every byte with an exponent is that power of g. -/
theorem gfLog_spec {a : Byte} (h : a ≠ 0#8) : ∃ i : Nat, gfLog a = some i ∧ i < 255 ∧ gfPow i = a :=
  ⟨_, gfLog_of_ne_zero h, logTable_lt h, (gfPow_natCast (logTable_lt h)).trans (expTable_logTable a h)⟩

theorem eq_zero_or_gfPow (a : Byte) : a = 0#8 ∨ ∃ n : Int, a = gfPow n := by
  by_cases h : a = 0#8
  · exact .inl h
  · obtain ⟨i, -, -, hi⟩ := gfLog_spec h
    exact .inr ⟨i, hi.symm⟩

theorem gfPow_natCast_inj {i j : Nat} (hi : i < 255) (hj : j < 255) (h : gfPow i = gfPow j) : i = j := by
  rw [← logTable_gfPow i hi, h, logTable_gfPow j hj]

theorem gfPow_eq_iff {m n : Int} : gfPow m = gfPow n ↔ m % 255 = n % 255 := by
  refine ⟨fun h => ?_, gfPow_congr⟩
  have hm : gfPow m = gfPow (m % 255).toNat := gfPow_congr (by omega)
  have hn : gfPow n = gfPow (n % 255).toNat := gfPow_congr (by omega)
  have := gfPow_natCast_inj (toNat_emod_lt m) (toNat_emod_lt n) (hm.symm.trans (h.trans hn))
  omega

/-! ### The laws of the field (R202) -/

theorem gfMul_comm (a b : Byte) : gfMul a b = gfMul b a := by
  obtain rfl | ⟨m, rfl⟩ := eq_zero_or_gfPow a
  · rw [gfMul_zero_left, gfMul_zero_right]
  obtain rfl | ⟨n, rfl⟩ := eq_zero_or_gfPow b
  · rw [gfMul_zero_left, gfMul_zero_right]
  · rw [← gfPow_add, ← gfPow_add, Int.add_comm]

theorem gfMul_assoc (a b c : Byte) : gfMul (gfMul a b) c = gfMul a (gfMul b c) := by
  obtain rfl | ⟨l, rfl⟩ := eq_zero_or_gfPow a
  · simp only [gfMul_zero_left]
  obtain rfl | ⟨m, rfl⟩ := eq_zero_or_gfPow b
  · simp only [gfMul_zero_left, gfMul_zero_right]
  obtain rfl | ⟨n, rfl⟩ := eq_zero_or_gfPow c
  · simp only [gfMul_zero_right]
  · simp only [← gfPow_add, Int.add_assoc]

theorem gfMul_xor_left (a b c : Byte) : gfMul (a ^^^ b) c = gfMul a c ^^^ gfMul b c := by
  rw [gfMul_comm, gfMul_xor_right, gfMul_comm c, gfMul_comm c]

theorem gfMul_eq_zero_iff (a b : Byte) : gfMul a b = 0#8 ↔ a = 0#8 ∨ b = 0#8 := by
  constructor
  · intro h
    obtain ha | ⟨m, rfl⟩ := eq_zero_or_gfPow a
    · exact .inl ha
    obtain hb | ⟨n, rfl⟩ := eq_zero_or_gfPow b
    · exact .inr hb
    · exact absurd h (gfPow_add m n ▸ gfPow_ne_zero _)
  · rintro (rfl | rfl)
    · exact gfMul_zero_left b
    · exact gfMul_zero_right a

/-- Settles O6: nonzero bytes multiply as their exponents add, and the loop of R201 is additive. -/
theorem gfFieldLaws : Obligations.GfFieldLaws :=
  ⟨gfMul_comm, gfMul_assoc, gfMul_xor_right, gfMul_zero_right, gfMul_one_right, gfMul_eq_zero_iff, rfl⟩

/-! ### Inverses (R206, R208) -/

theorem gfMul_invTable : ∀ a : Byte, a ≠ 0#8 → gfMul a (invTable.getD a.toNat 0#8) = 0x01#8 := by decide +kernel

theorem gfInv_zero : gfInv 0#8 = none := rfl

theorem gfInv_of_ne_zero {a : Byte} (h : a ≠ 0#8) : gfInv a = some (invTable.getD a.toNat 0#8) := if_neg h

theorem gfInv_spec {a : Byte} (h : a ≠ 0#8) : ∃ c, gfInv a = some c ∧ gfMul a c = 0x01#8 :=
  ⟨_, gfInv_of_ne_zero h, gfMul_invTable a h⟩

theorem inverse_unique {a c c' : Byte} (hc : gfMul a c = 0x01#8) (hc' : gfMul a c' = 0x01#8) : c' = c :=
  calc c' = gfMul c (gfMul a c') := by rw [← gfMul_assoc, gfMul_comm c, hc, gfMul_one_left]
    _ = c := by rw [hc', gfMul_one_right]

theorem gfInv_gfPow (n : Int) : gfInv (gfPow n) = some (gfPow (-n)) := by
  obtain ⟨c, hinv, hc⟩ := gfInv_spec (gfPow_ne_zero n)
  rw [hinv, inverse_unique hc (gfMul_gfPow_neg n)]

/-- Settles O8: EXP is indexed below its length, and exponents add modulo 255. -/
theorem gfPowLaws : Obligations.GfPowLaws :=
  ⟨fun n => ⟨(n % 255).toNat, toNat_emod_lt n, by omega, expTable_getElem?_gfPow n⟩,
    fun n k => gfPow_congr (Int.add_mul_emod_self_left n 255 k), gfPow_add, gfInv_gfPow⟩

/-- Settles O7: EXP lists the powers of g, LOG the exponents of the nonzero bytes and INV their inverses. -/
theorem gfTablesArePowers : Obligations.GfTablesArePowers := by
  refine ⟨gfPow_zero, fun i _ => ?_, rfl, fun a ha => ?_, fun i _ => gfPow_ne_zero i, fun a ha => ?_, fun a ha => ?_,
    gfLog_zero, gfInv_zero⟩
  · exact gfPow_add i 1
  · obtain ⟨i, hlog, hi, hpow⟩ := gfLog_spec ha
    exact ⟨i, hlog, hi, hpow, fun j hj h => gfPow_natCast_inj hj hi (h.trans hpow.symm)⟩
  · obtain ⟨c, hinv, hc⟩ := gfInv_spec ha
    exact ⟨c, hinv, hc, fun _ => inverse_unique hc⟩
  · obtain ⟨i, hlog, -, rfl⟩ := gfLog_spec ha
    exact ⟨i, hlog, gfInv_gfPow i⟩

/-! ### The two unknowns of a stripe (R209, R213) -/

section Solve

variable {x y : Int} {a b : Byte}

theorem gfMul_gfMul_of_inverse {u c : Byte} (h : gfMul u c = 0x01#8) (v : Byte) : gfMul u (gfMul c v) = v := by
  rw [← gfMul_assoc, h, gfMul_one_left]

/-- R207: the divisor of R209 is 0 only where x = y (mod 255). -/
theorem gfPow_xor_one_ne_zero (h : x % 255 ≠ y % 255) : gfPow (y - x) ^^^ 0x01#8 ≠ 0#8 := by
  rw [Ne, BitVec.xor_eq_zero_iff, ← gfPow_zero, gfPow_eq_iff]
  omega

theorem ddCoeffs_spec (h : x % 255 ≠ y % 255) : ∃ a b, ddCoeffs x y = some (a, b) ∧
    gfMul (gfPow (y - x) ^^^ 0x01#8) a = gfPow (y - x) ∧ gfMul (gfPow (y - x) ^^^ 0x01#8) b = gfPow (-x) := by
  obtain ⟨c, hinv, hc⟩ := gfInv_spec (gfPow_xor_one_ne_zero h)
  refine ⟨gfMul c (gfPow (y - x)), gfMul c (gfPow (-x)), ?_, gfMul_gfMul_of_inverse hc _, gfMul_gfMul_of_inverse hc _⟩
  rw [ddCoeffs, hinv]

theorem solveWith_xor (ab : Byte × Byte) (pd qd : Byte) :
    (solveWith ab pd qd).1 ^^^ (solveWith ab pd qd).2 = pd := by
  rw [solveWith, BitVec.xor_comm, BitVec.xor_assoc, BitVec.xor_self, BitVec.xor_zero]

/-- With t = g^(y-x), the second equation of R209 is g^x (dx + t dy) = qd, where dy = pd + dx. -/
theorem second_equation {dx pd qd : Byte}
    (hdx : gfMul (gfPow (y - x) ^^^ 0x01#8) dx = gfMul (gfPow (y - x)) pd ^^^ gfMul (gfPow (-x)) qd) :
    gfMul (gfPow x) dx ^^^ gfMul (gfPow y) (pd ^^^ dx) = qd := by
  have hy : gfPow y = gfMul (gfPow x) (gfPow (y - x)) := by rw [← gfPow_add, add_sub_cancel]
  calc gfMul (gfPow x) dx ^^^ gfMul (gfPow y) (pd ^^^ dx)
    _ = gfMul (gfPow x) (dx ^^^ gfMul (gfPow (y - x)) (pd ^^^ dx)) := by rw [hy, gfMul_assoc, ← gfMul_xor_right]
    _ = gfMul (gfPow x) (gfMul (gfPow (y - x)) pd ^^^ gfMul (gfPow (y - x) ^^^ 0x01#8) dx) := by
      rw [gfMul_xor_right _ pd, gfMul_xor_left, gfMul_one_left, BitVec.xor_comm dx, BitVec.xor_assoc]
    _ = gfMul (gfPow x) (gfMul (gfPow (-x)) qd) := by
      rw [hdx, ← BitVec.xor_assoc, BitVec.xor_self, BitVec.zero_xor]
    _ = qd := gfMul_gfMul_of_inverse (gfMul_gfPow_neg x) qd

theorem solveWith_gfPow (ha : gfMul (gfPow (y - x) ^^^ 0x01#8) a = gfPow (y - x))
    (hb : gfMul (gfPow (y - x) ^^^ 0x01#8) b = gfPow (-x)) (pd qd : Byte) :
    gfMul (gfPow x) (solveWith (a, b) pd qd).1 ^^^ gfMul (gfPow y) (solveWith (a, b) pd qd).2 = qd :=
  second_equation (by rw [solveWith, gfMul_xor_right, ← gfMul_assoc, ha, ← gfMul_assoc, hb])

end Solve

/-! ### gf_mul as the product of polynomials (R200) -/

/-- One step of the remainder modulo m(x): the term x^(8+k) is taken out. -/
def reduceTerm (p : BitVec 16) (k : Nat) : BitVec 16 := if p.getLsbD (8 + k) then p ^^^ (0x11D#16 <<< k) else p

theorem polyMod_eq_foldl (p : BitVec 16) :
    polyMod p = ([6, 5, 4, 3, 2, 1, 0].foldl reduceTerm p).setWidth 8 := rfl

theorem reduceTerm_xor (p q : BitVec 16) (k : Nat) :
    reduceTerm (p ^^^ q) k = reduceTerm p k ^^^ reduceTerm q k := by
  rw [reduceTerm, BitVec.getLsbD_xor, ite_xor_xor]
  rfl

theorem foldl_reduceTerm_xor (ks : List Nat) (p q : BitVec 16) :
    ks.foldl reduceTerm (p ^^^ q) = ks.foldl reduceTerm p ^^^ ks.foldl reduceTerm q := by
  induction ks generalizing p q with
  | nil => rfl
  | cons k ks ih => rw [List.foldl_cons, reduceTerm_xor, ih]; rfl

theorem polyMod_xor (p q : BitVec 16) : polyMod (p ^^^ q) = polyMod p ^^^ polyMod q := by
  rw [polyMod_eq_foldl, foldl_reduceTerm_xor, BitVec.setWidth_xor]
  rfl

theorem reduceTerm_shiftLeft (p : BitVec 16) {k : Nat} (hk : k < 7) :
    reduceTerm (p <<< 1) (k + 1) = reduceTerm p k <<< 1 := by
  have hbit : (p <<< 1).getLsbD (8 + (k + 1)) = p.getLsbD (8 + k) := by
    have hlt : 8 + k + 1 < 16 := by omega
    rw [← Nat.add_assoc, BitVec.getLsbD_shiftLeft, decide_eq_true hlt, decide_eq_false (by omega), Nat.add_sub_cancel]
    rfl
  rw [reduceTerm, hbit, reduceTerm]
  split
  · rw [BitVec.shiftLeft_xor_distrib, BitVec.shiftLeft_add]
  · rfl

theorem foldl_reduceTerm_shiftLeft (ks : List Nat) (h : ∀ k ∈ ks, k < 7) (p : BitVec 16) :
    (ks.map (· + 1)).foldl reduceTerm (p <<< 1) = ks.foldl reduceTerm p <<< 1 := by
  induction ks generalizing p with
  | nil => rfl
  | cons k ks ih =>
    obtain ⟨hk, hks⟩ := List.forall_mem_cons.1 h
    rw [List.map_cons, List.foldl_cons, reduceTerm_shiftLeft p hk, ih hks]
    rfl

/-- The last step after a shift is the reduction by 0x1D of R201. -/
theorem setWidth_reduceTerm_shiftLeft (p : BitVec 16) :
    (reduceTerm (p <<< 1) 0).setWidth 8 = gfShift (p.setWidth 8) := by
  have hbit : (p <<< 1).getLsbD 8 = (p.setWidth 8).getLsbD 7 := by simp
  have hshift : (p <<< 1).setWidth 8 = p.setWidth 8 <<< 1 := BitVec.setWidth_shiftLeft_of_le (by decide)
  rw [reduceTerm, hbit, gfShift, apply_ite (BitVec.setWidth 8), BitVec.setWidth_xor, hshift]
  rfl

/-- The remainder of x * p is the doubling of the remainder of p, for p of degree at most 13. -/
theorem polyMod_shiftLeft_one {p : BitVec 16} (h : p.getLsbD 14 = false) : polyMod (p <<< 1) = gfShift (polyMod p) := by
  have htop : reduceTerm p 6 = p := by rw [reduceTerm, h]; rfl
  have hshift := foldl_reduceTerm_shiftLeft [5, 4, 3, 2, 1, 0] (by decide) p
  calc polyMod (p <<< 1)
    _ = (reduceTerm ([6, 5, 4, 3, 2, 1].foldl reduceTerm (p <<< 1)) 0).setWidth 8 := rfl
    _ = gfShift (([5, 4, 3, 2, 1, 0].foldl reduceTerm p).setWidth 8) := by
      rw [← setWidth_reduceTerm_shiftLeft, ← hshift]; rfl
    _ = gfShift (([5, 4, 3, 2, 1, 0].foldl reduceTerm (reduceTerm p 6)).setWidth 8) := by rw [htop]
    _ = gfShift (polyMod p) := rfl

theorem polyMod_setWidth (b : Byte) : polyMod (b.setWidth 16) = b := by
  have hfix (k : Nat) : reduceTerm (b.setWidth 16) k = b.setWidth 16 := by
    rw [reduceTerm, BitVec.getLsbD_setWidth, BitVec.getLsbD_of_ge b _ (Nat.le_add_right 8 k)]
    simp
  rw [polyMod_eq_foldl, List.foldl_fixed' hfix, BitVec.setWidth_setWidth_of_le _ (by decide), BitVec.setWidth_eq]

theorem polyMod_setWidth_shiftLeft (b : Byte) {i : Nat} (h : i < 8) :
    polyMod (b.setWidth 16 <<< i) = gfShift^[i] b := by
  induction i with
  | zero => rw [BitVec.shiftLeft_zero, polyMod_setWidth]; rfl
  | succ i ih =>
    have hdeg : (b.setWidth 16 <<< i).getLsbD 14 = false := by
      simp
      intros
      exact BitVec.getLsbD_of_ge _ _ (by omega)
    rw [BitVec.shiftLeft_add, polyMod_shiftLeft_one hdeg, ih (by omega), Function.iterate_succ_apply']

theorem polyMod_polyProduct (a b : Byte) : polyMod (polyProduct a b) = gfMul b a := by
  rw [gfMul, gfMulLoop_eq_foldl]
  refine (List.foldl_hom polyMod fun p i => ?_).symm
  split
  · next hbit => rw [polyMod_xor, polyMod_setWidth_shiftLeft b (BitVec.lt_of_getLsbD hbit)]
  · rfl

/-- Settles O5: the remainder is additive, and that of x^i * b is b doubled i times. -/
theorem gfMulIsThePolynomialProduct : Obligations.GfMulIsThePolynomialProduct := fun a b => by
  rw [gfMul_comm, polyMod_polyProduct]

/-! ### The scalar commands (R210 to R212, R214) -/

section Commands

variable {s : State} {i : Instr}

/-- A command that only stages RES writes completes with them. -/
theorem exec_of_done {ws : List (Fin 4 × Word)} (hs : s.Started) (hp : program i s = .done { res := ws }) :
    exec i s = .next (s.succeeded (applyRes s.res ws)) := by
  rw [exec_started i hs, hp, Prog.run_done, complete_res_eq]

theorem exec_of_raise {k : ErrorKind} {d b : Word} (hs : s.Started) (hp : program i s = .raise k d b) :
    exec i s = .next (s.failed k d b) := by
  rw [exec_started i hs, hp, Prog.run_raise]

theorem gfInvProgram_of_zero (h : s.b 0 = 0#8) : gfInvProgram s = .raise .domain noContext noContext := by
  simp only [gfInvProgram, State.operandsGf1, h, gfInv_zero]

theorem gfInvProgram_of_gfInv {c : Byte} (h : gfInv (s.b 0) = some c) :
    gfInvProgram s = .done { res := [(0, zextByte c)] } := by
  simp only [gfInvProgram, State.operandsGf1, h]

/-- Where x = y (mod 255) the program raises DomainError before it computes anything. -/
theorem gfSolve2Program_of_eq (h : ((s.b 0).toNat : Int) % 255 = ((s.b 1).toNat : Int) % 255) :
    gfSolve2Program s = .raise .domain noContext noContext := if_pos h

theorem gfSolve2Program_of_ddCoeffs {ab : Byte × Byte} (h : ((s.b 0).toNat : Int) % 255 ≠ ((s.b 1).toNat : Int) % 255)
    (hab : ddCoeffs (s.b 0).toNat (s.b 1).toNat = some ab) :
    gfSolve2Program s = .done { res := [(0, zextByte (solveWith ab (s.b 2) (s.b 3)).1),
      (1, zextByte (solveWith ab (s.b 2) (s.b 3)).2), (2, zextByte ab.1), (3, zextByte ab.2)] } := by
  simp only [gfSolve2Program, State.operandsGf4, if_neg h, hab]

end Commands

/-- Settles O1: the program is one staged RES write. -/
theorem gfMulResult : Obligations.GfMulResult := ⟨decode_encode .gfMul, fun _ hs => exec_of_done (ws := [(0, _)]) hs rfl⟩

/-- Settles O2: EXP is read at the Euclidean remainder of the exponent. -/
theorem gfPowResult : Obligations.GfPowResult :=
  ⟨decode_encode .gfPow, fun s hs =>
    ⟨(s.sgn 0 % 255).toNat, toNat_emod_lt _, Int.toNat_of_nonneg (Int.emod_nonneg _ (by decide)), gfPow (s.sgn 0),
      expTable_getElem?_gfPow _, exec_of_done (ws := [(0, _)]) hs rfl⟩⟩

/-- Settles O3: INV has an entry at the operand exactly if it is not 0. -/
theorem gfInvResult : Obligations.GfInvResult := by
  refine ⟨decode_encode .gfInv, fun s hs => ⟨fun h => exec_of_raise hs (gfInvProgram_of_zero h), fun h => ?_⟩⟩
  obtain ⟨c, hinv, hc⟩ := gfInv_spec h
  exact ⟨c, hc, exec_of_done (ws := [(0, _)]) hs (gfInvProgram_of_gfInv hinv)⟩

/-- Settles O4: the divisor of R209 has an inverse where x and y differ modulo 255. -/
theorem gfSolve2Result : Obligations.GfSolve2Result := by
  refine ⟨decode_encode .gfSolve2, fun s hs x y hx hy => ?_⟩
  subst hx hy
  refine ⟨fun h => exec_of_raise hs (gfSolve2Program_of_eq h), fun h => ?_⟩
  obtain ⟨a, b, hab, ha, hb⟩ := ddCoeffs_spec h
  exact ⟨_, _, a, b, solveWith_xor (a, b) _ _, solveWith_gfPow ha hb _ _, ha, hb,
    exec_of_done (ws := [(0, _), (1, _), (2, _), (3, _)]) hs (gfSolve2Program_of_ddCoeffs h hab)⟩

end Sys2Proof.Machine

/-! ## Functions on blocks (R240, R243 to R245, R252) -/

namespace Sys2Proof.Machine

open Sys2Proof.Spec

/-! ### Blocks given byte by byte (R240, R243, R244) -/

section Bytes

variable (len : Nat) (f g : Nat → Byte)

theorem xorBlock_bytesOf : xorBlock (bytesOf len f) (bytesOf len g) = bytesOf len fun i => f i ^^^ g i := by
  rw [xorBlock, bytesOf, bytesOf, List.zipWith_map, List.zipWith_self, bytesOf]

theorem scaleBlock_bytesOf (c : Byte) : scaleBlock (bytesOf len f) c = bytesOf len fun i => gfMul c (f i) :=
  List.map_map

theorem zeroBlock_eq_bytesOf : zeroBlock len = bytesOf len fun _ => 0#8 := by
  rw [bytesOf, List.map_const', List.length_range, zeroBlock]

theorem pUpdate_bytesOf (h : Nat → Byte) :
    pUpdate (bytesOf len f) (bytesOf len g) (bytesOf len h) = bytesOf len fun i => h i ^^^ f i ^^^ g i := by
  rw [pUpdate, xorBlock_bytesOf, xorBlock_bytesOf]

/-- The Q update is the P update with the two data blocks scaled (R245). -/
theorem qUpdate_eq_pUpdate (old new par : Block) (k : Int) :
    qUpdate old new par k = pUpdate (scaleBlock old (gfPow k)) (scaleBlock new (gfPow k)) par := rfl

theorem xorSum_succ_left (k : Nat) : xorSum f (k + 1) = f 0 ^^^ xorSum (fun j => f (j + 1)) k := by
  induction k with
  | zero => exact BitVec.xor_comm _ _
  | succ k ih => rw [xorSum, ih, BitVec.xor_assoc, xorSum]

/-- P of a list of blocks, byte by byte (R243). -/
theorem pParity_bytesOf (d : Nat → Nat → Byte) (count : Nat) :
    pParity len ((List.range count).map fun j => bytesOf len (d j)) =
      bytesOf len fun i => xorSum (fun j => d j i) count := by
  induction count generalizing d with
  | zero => exact zeroBlock_eq_bytesOf len
  | succ count ih =>
    rw [List.range_succ_eq_map, List.map_cons, List.map_map, pParity]
    refine (congrArg (xorBlock _) (ih fun j => d (j + 1))).trans ?_
    simp only [xorBlock_bytesOf, xorSum_succ_left]

theorem qParityFrom_eq_pParity (j : Nat) (ds : List Block) :
    qParityFrom len j ds = pParity len (ds.mapIdx fun i d => scaleBlock d (gfPow (j + i : Nat))) := by
  induction ds generalizing j with
  | nil => rfl
  | cons d ds ih =>
    rw [qParityFrom, ih, List.mapIdx_cons, pParity]
    simp only [Nat.add_zero, Nat.add_assoc, Nat.add_comm 1]

/-- Q is the P of the blocks scaled by the powers of g in the order of the list (R244). -/
theorem qParity_eq_pParity (ds : List Block) :
    qParity len ds = pParity len (ds.mapIdx fun j d => scaleBlock d (gfPow (j : Nat))) := by
  simp only [qParity, qParityFrom_eq_pParity, Nat.zero_add]

/-- Q of a list of blocks, byte by byte (R244). -/
theorem qParity_bytesOf (d : Nat → Nat → Byte) (count : Nat) :
    qParity len ((List.range count).map fun j => bytesOf len (d j)) =
      bytesOf len fun i => xorSum (fun j => gfMul (gfPow (j : Nat)) (d j i)) count := by
  rw [qParity_eq_pParity, ← pParity_bytesOf]
  congr 1
  refine List.ext_getElem (by simp) fun j _ _ => ?_
  simp [scaleBlock_bytesOf]

end Bytes

/-! ### Incremental updates (R245, R252) -/

theorem xorBlock_comm (x y : Block) : xorBlock x y = xorBlock y x := List.zipWith_comm_of_comm BitVec.xor_comm

theorem xorBlock_assoc (x y z : Block) : xorBlock (xorBlock x y) z = xorBlock x (xorBlock y z) := by
  simp only [xorBlock, List.zipWith_zipWith_left, List.zipWith_zipWith_right, BitVec.xor_assoc]

theorem xorBlock_xorBlock_cancel {x y : Block} (h : x.length = y.length) : xorBlock (xorBlock x y) x = y := by
  refine List.ext_getElem (by simp [xorBlock, h]) fun i _ _ => ?_
  simp only [xorBlock, List.getElem_zipWith]
  rw [BitVec.xor_comm, ← BitVec.xor_assoc, BitVec.xor_self, BitVec.zero_xor]

theorem pParity_length {len : Nat} {ds : List Block} (h : ∀ d ∈ ds, d.length = len) : (pParity len ds).length = len := by
  induction ds with
  | nil => exact List.length_replicate
  | cons d ds ih =>
    obtain ⟨hd, hds⟩ := List.forall_mem_cons.1 h
    rw [pParity, xorBlock, List.length_zipWith, hd, ih hds, Nat.min_self]

/-- R252 for P: the old block cancels where it stands in the list. -/
theorem pUpdate_pParity {len : Nat} {ds : List Block} {j : Nat} (new : Block) (hj : j < ds.length)
    (h : ∀ d ∈ ds, d.length = len) : pUpdate ds[j] new (pParity len ds) = pParity len (ds.set j new) := by
  induction ds generalizing j with
  | nil => cases hj
  | cons d ds ih =>
    obtain ⟨hd, hds⟩ := List.forall_mem_cons.1 h
    cases j with
    | zero =>
      calc pUpdate d new (xorBlock d (pParity len ds))
        _ = xorBlock (pParity len ds) new := by
          rw [pUpdate, xorBlock_xorBlock_cancel (hd.trans (pParity_length hds).symm)]
        _ = xorBlock new (pParity len ds) := xorBlock_comm _ _
    | succ j =>
      have hj' : j < ds.length := Nat.lt_of_succ_lt_succ hj
      calc pUpdate ds[j] new (xorBlock d (pParity len ds))
        _ = xorBlock d (pUpdate ds[j] new (pParity len ds)) := by
          simp only [pUpdate, xorBlock_assoc]
        _ = xorBlock d (pParity len (ds.set j new)) := by rw [ih hj' hds]

/-- R252 for Q: it is R252 for P of the scaled blocks. -/
theorem qUpdate_qParity {len : Nat} {ds : List Block} {j : Nat} (new : Block) (hj : j < ds.length)
    (h : ∀ d ∈ ds, d.length = len) : qUpdate ds[j] new (qParity len ds) j = qParity len (ds.set j new) := by
  have hscaled : ∀ d ∈ ds.mapIdx fun i d => scaleBlock d (gfPow (i : Nat)), d.length = len := by
    intro d hd
    obtain ⟨i, hi, rfl⟩ := List.mem_mapIdx.1 hd
    rw [scaleBlock_length, h _ (List.getElem_mem hi)]
  rw [qUpdate_eq_pUpdate, qParity_eq_pParity, qParity_eq_pParity, List.mapIdx_set,
    ← pUpdate_pParity _ (by rwa [List.length_mapIdx]) hscaled, List.getElem_mapIdx]

/-- Settles O13: the old block cancels in the XOR, and Q is the P of scaled blocks. -/
theorem updateAgreesWithCompute : Obligations.UpdateAgreesWithCompute := fun _ _ _ new hj h _ =>
  ⟨pUpdate_pParity new hj h, qUpdate_qParity new hj h⟩

end Sys2Proof.Machine

/-! ## The block commands (R241, R242, R246 to R251) -/

namespace Sys2Proof.Machine

open Sys2Proof.Spec

variable {s : State} {i : Instr} {b len : Nat}

/-! ### Operand checks (R241) -/

theorem isBuffer_iff : s.isBuffer b = true ↔ BufferOk s b := decide_eq_true_iff

theorem blockLenOk_iff : s.blockLenOk len = true ↔ LenOk s len := by
  rw [State.blockLenOk, Bool.and_eq_true, decide_eq_true_iff, decide_eq_true_iff, LenOk]

theorem computeOk_iff {o : OperandsPc} : s.computeOk o = true ↔
    BufferOk s o.dst ∧ BufferOk s o.first ∧ 1 ≤ o.count ∧ o.first + o.count ≤ s.params.nbuf ∧ LenOk s o.len := by
  simp only [State.computeOk, Bool.and_eq_true, isBuffer_iff, blockLenOk_iff, decide_eq_true_iff, and_assoc]

theorem updateOk_iff {dst oldD newD oldPar : Nat} : s.updateOk dst oldD newD oldPar len = true ↔
    BufferOk s dst ∧ BufferOk s oldD ∧ BufferOk s newD ∧ BufferOk s oldPar ∧ LenOk s len := by
  simp only [State.updateOk, Bool.and_eq_true, isBuffer_iff, blockLenOk_iff, and_assoc]

/-! ### Operands that are read (R242) -/

theorem withBuffer_unwritten (h : Unwritten s b len) (k : Block → Prog) :
    withBuffer s b len k = .stop .unwrittenBuffer := by
  obtain ⟨j, hj, hnone⟩ := h
  have hx : s.bufBytes b 0 len = none := State.bufBytes_of_unwritten ⟨j, hj, by rwa [Nat.zero_add]⟩
  rw [withBuffer, hx]

/-- Where the rest of the program stops for want of a value, so does the read before it. -/
theorem withBuffer_stop {k : Block → Prog} (h : ∀ x, k x = .stop .unwrittenBuffer) :
    withBuffer s b len k = .stop .unwrittenBuffer := by
  rw [withBuffer]
  split
  · exact h _
  · rfl

theorem withBuffers_holds {first count : Nat} {d : Nat → Nat → Byte} (h : ∀ j < count, Holds s (first + j) len (d j))
    (k : List Block → Prog) :
    withBuffers s len first count k = k ((List.range count).map fun j => bytesOf len (d j)) := by
  induction count generalizing first d k with
  | zero => rfl
  | succ count ih =>
    have hrest : ∀ j < count, Holds s (first + 1 + j) len (d (j + 1)) := fun j hj => by
      rw [Nat.add_assoc, Nat.add_comm 1]
      exact h (j + 1) (Nat.succ_lt_succ hj)
    have hfirst : Holds s first len (d 0) := h 0 (Nat.succ_pos count)
    rw [withBuffers, withBuffer_holds hfirst, ih hrest, List.range_succ_eq_map, List.map_cons,
      List.map_map]
    rfl

theorem withBuffers_unwritten {first count : Nat} (h : ∃ j < count, Unwritten s (first + j) len)
    (k : List Block → Prog) : withBuffers s len first count k = .stop .unwrittenBuffer := by
  induction count generalizing first k with
  | zero =>
    obtain ⟨j, hj, -⟩ := h
    cases hj
  | succ count ih =>
    obtain ⟨j, hj, hu⟩ := h
    rw [withBuffers]
    cases j with
    | zero => exact withBuffer_unwritten hu _
    | succ j =>
      rw [← Nat.add_assoc, Nat.add_right_comm] at hu
      exact withBuffer_stop fun x => ih ⟨j, Nat.lt_of_succ_lt_succ hj, hu⟩ _

/-- The three operands of an update are handed on together (R250, R251). -/
theorem withUpdateBuffers_holds {b₁ b₂ b₃ : Nat} {o w r : Nat → Byte} (ho : Holds s b₁ len o) (hw : Holds s b₂ len w)
    (hr : Holds s b₃ len r) (k : Block → Block → Block → Prog) :
    (withBuffer s b₁ len fun old => withBuffer s b₂ len fun new => withBuffer s b₃ len fun par => k old new par) =
      k (bytesOf len o) (bytesOf len w) (bytesOf len r) := by
  rw [withBuffer_holds ho, withBuffer_holds hw, withBuffer_holds hr]

theorem withUpdateBuffers_unwritten {b₁ b₂ b₃ : Nat}
    (h : Unwritten s b₁ len ∨ Unwritten s b₂ len ∨ Unwritten s b₃ len) (k : Block → Block → Block → Prog) :
    (withBuffer s b₁ len fun old => withBuffer s b₂ len fun new => withBuffer s b₃ len fun par => k old new par) =
      .stop .unwrittenBuffer := by
  rcases h with ho | hw | hr
  · exact withBuffer_unwritten ho _
  · exact withBuffer_stop fun _ => withBuffer_unwritten hw _
  · exact withBuffer_stop fun _ => withBuffer_stop fun _ => withBuffer_unwritten hr _

/-! ### The three ways a block command ends (R241, R242, R75, R76) -/

section Ends

variable {ok : Bool} {k : Prog} (hs : s.Started) (hp : program i s = blockChecks ok k)

include hs hp

theorem exec_checks_fail (h : ¬ok = true) : exec i s = .next (s.failed .bounds noContext noContext) :=
  exec_of_raise hs (hp.trans (if_neg h))

theorem exec_checks_pass (h : ok = true) : exec i s = k.run s := by
  rw [exec_started i hs, hp, blockChecks, if_pos h]

/-- The result is stored in the destination, and the command completes (R75). -/
theorem exec_store {dst : Nat} {t : Block} (h : ok = true) (hk : k = storeBlock dst t) :
    exec i s = .next { s.succeeded s.res with buf := s.bufWith dst 0 t } := by
  rw [exec_checks_pass hs hp h, hk, storeBlock, Prog.run_done, complete_buf_eq]

theorem exec_unwritten (h : ok = true) (hk : k = .stop .unwrittenBuffer) : exec i s = .fault .unwrittenBuffer := by
  rw [exec_checks_pass hs hp h, hk, Prog.run_stop]

end Ends

/-! ### Results, errors and faults (R246 to R251) -/

/-- Settles O9: the two sources are read, and their XOR is stored. -/
theorem blkXorResult : Obligations.BlkXorResult := by
  refine ⟨decode_encode .blkXor, fun s hs => ?_⟩
  have hok : (s.isBuffer (s.u 0) && s.isBuffer (s.u 1) && s.isBuffer (s.u 2) && s.blockLenOk (s.u 3)) = true ↔
      BufferOk s (s.u 0) ∧ BufferOk s (s.u 1) ∧ BufferOk s (s.u 2) ∧ LenOk s (s.u 3) := by
    simp only [Bool.and_eq_true, isBuffer_iff, blockLenOk_iff, and_assoc]
  refine ⟨fun h => exec_checks_fail hs rfl (mt hok.1 h), fun h x y hx hy => exec_store hs rfl (hok.2 h) ?_,
    fun h hu => exec_unwritten hs rfl (hok.2 h) ?_⟩
  · rw [← xorBlock_bytesOf]
    exact (withBuffer_holds hx _).trans (withBuffer_holds hy _)
  · rcases hu with hA | hB
    · exact withBuffer_unwritten hA _
    · exact withBuffer_stop fun _ => withBuffer_unwritten hB _

/-- Settles O10: the source is read, and its multiple is stored. -/
theorem blkScaleResult : Obligations.BlkScaleResult := by
  refine ⟨decode_encode .blkScale, fun s hs => ?_⟩
  have hok : (s.isBuffer (s.u 0) && s.isBuffer (s.u 1) && s.blockLenOk (s.u 3)) = true ↔
      BufferOk s (s.u 0) ∧ BufferOk s (s.u 1) ∧ LenOk s (s.u 3) := by
    simp only [Bool.and_eq_true, isBuffer_iff, blockLenOk_iff, and_assoc]
  refine ⟨fun h => exec_checks_fail hs rfl (mt hok.1 h), fun h x hx => exec_store hs rfl (hok.2 h) ?_,
    fun h hu => exec_unwritten hs rfl (hok.2 h) (withBuffer_unwritten hu _)⟩
  rw [← scaleBlock_bytesOf]
  exact withBuffer_holds hx _

/-- Settles O11: the inputs are read in the order of the list, and their parity is stored. -/
theorem parComputeResult : Obligations.ParComputeResult := by
  refine ⟨decode_encode .parComputeP, decode_encode .parComputeQ, fun s hs => ?_⟩
  have hok := computeOk_iff (s := s) (o := s.operandsPc)
  refine ⟨fun h => ⟨exec_checks_fail hs rfl (mt hok.1 h), exec_checks_fail hs rfl (mt hok.1 h)⟩,
    fun h d hd => ⟨exec_store hs rfl (hok.2 h) ?_, exec_store hs rfl (hok.2 h) ?_⟩,
    fun h hu => ⟨exec_unwritten hs rfl (hok.2 h) (withBuffers_unwritten hu _),
      exec_unwritten hs rfl (hok.2 h) (withBuffers_unwritten hu _)⟩⟩
  · rw [← pParity_bytesOf]
    exact withBuffers_holds hd _
  · rw [← qParity_bytesOf]
    exact withBuffers_holds hd _

/-- Settles O12: the three operands are read, and the updated parity is stored. -/
theorem parUpdateResult : Obligations.ParUpdateResult := by
  refine ⟨decode_encode .parUpdateP, decode_encode .parUpdateQ, fun s hs => ?_⟩
  have hok := updateOk_iff (s := s) (dst := s.u 0) (oldD := s.u 1) (newD := s.u 2) (oldPar := s.u 3) (len := s.u 4)
  refine ⟨fun h => ⟨exec_checks_fail hs rfl (mt hok.1 h), exec_checks_fail hs rfl (mt hok.1 h)⟩,
    fun h o w r ho hw hr => ⟨exec_store hs rfl (hok.2 h) ?_, exec_store hs rfl (hok.2 h) ?_⟩,
    fun h hu => ⟨exec_unwritten hs rfl (hok.2 h) (withUpdateBuffers_unwritten hu _),
      exec_unwritten hs rfl (hok.2 h) (withUpdateBuffers_unwritten hu _)⟩⟩
  · rw [← pUpdate_bytesOf]
    exact withUpdateBuffers_holds ho hw hr _
  · rw [← pUpdate_bytesOf, ← scaleBlock_bytesOf, ← scaleBlock_bytesOf]
    exact withUpdateBuffers_holds ho hw hr _

end Sys2Proof.Machine

/-! ## What a command leaves alone in BUF (R76, R242, R365, R366) -/

namespace Sys2Proof.Machine

open Sys2Proof.Spec

variable {s t : State} {i : Instr} {p : Params} {target : Option (Nat × Nat)}

/-! ### The commands that write RES registers only -/

/-- The completion writes RES registers and nothing else. -/
abbrev Effects.OnlyRes (e : Effects) : Prop := e = { res := e.res }

variable {skip disks : List Nat} {bs stripe : Nat}

theorem onlyRes_readData {k : List Block → Prog} (h : ∀ ds, (k ds).Finishes Effects.OnlyRes) :
    (readData bs stripe skip disks k).Finishes Effects.OnlyRes :=
  all_readData _ (fun _ _ => trivial) fun ds _ => h ds

theorem onlyRes_bsRead {d off len : Nat} {k : Block → Prog} (h : ∀ x, (k x).Finishes Effects.OnlyRes) :
    (bsRead d stripe off len k).Finishes Effects.OnlyRes := all_bsRead trivial h

theorem onlyRes_bsWrite {d off : Nat} {x : Block} {k : Prog} (h : k.Finishes Effects.OnlyRes) :
    (bsWrite d stripe off x k).Finishes Effects.OnlyRes := all_bsWrite trivial h

theorem onlyRes_checkFrom (n bs left stripe : Nat) : (checkFrom n bs left stripe).Finishes Effects.OnlyRes := by
  induction left generalizing stripe with
  | zero => exact rfl
  | succ left ih =>
    exact onlyRes_readData fun _ => onlyRes_bsRead fun _ => onlyRes_bsRead fun _ =>
      Prog.finishes_ite rfl (ih (stripe + 1))

theorem onlyRes_putProgram (s : State) : (putProgram s).Finishes Effects.OnlyRes := by
  unfold putProgram
  refine all_transferChecks (fun stripe off _ _ _ _ _ => ?_) fun _ _ _ => trivial
  split
  · exact onlyRes_readData fun _ => all_withBuffer fun _ _ =>
      onlyRes_bsWrite <| onlyRes_bsWrite <| onlyRes_bsWrite rfl
  · exact onlyRes_bsRead fun _ => onlyRes_bsRead fun _ => onlyRes_bsRead fun _ => all_withBuffer fun _ _ =>
      onlyRes_bsWrite <| onlyRes_bsWrite <| onlyRes_bsWrite rfl

/-- A recovery command writes RES registers only if what follows its checks does (R310). -/
theorem onlyRes_recOne {o : OperandsRec} {ok : Bool} {d : Nat} {k : Prog} (h : k.Finishes Effects.OnlyRes) :
    (recoveryChecksOne s o <| whenRole ok d stripe k).Finishes Effects.OnlyRes :=
  all_recoveryChecksOne (fun _ _ _ => all_whenRole (fun _ => h) fun _ => trivial) fun _ _ _ => trivial

theorem onlyRes_recTwo {o : OperandsRec} {ok : Bool} {d : Nat} {k : Prog} (h : k.Finishes Effects.OnlyRes) :
    (recoveryChecksTwo s o <| whenRole ok d stripe k).Finishes Effects.OnlyRes :=
  all_recoveryChecksTwo (fun _ _ _ _ _ => all_whenRole (fun _ => h) fun _ => trivial) fun _ _ _ => trivial

/-- A command without a buffer destination, INIT apart, completes with RES writes only (R75, R145). -/
theorem program_onlyRes (hi : i ≠ .init) (h : bufferTarget i s = none) : (program i s).Finishes Effects.OnlyRes := by
  cases i with
  | gfMul => exact rfl
  | gfPow => exact rfl
  | gfInv =>
    simp only [program, gfInvProgram]
    split
    · trivial
    · exact rfl
  | gfSolve2 =>
    simp only [program, gfSolve2Program]
    refine Prog.finishes_ite trivial ?_
    split
    · trivial
    · exact rfl
  | blkXor => cases h
  | blkScale => cases h
  | parComputeP => cases h
  | parComputeQ => cases h
  | parUpdateP => cases h
  | parUpdateQ => cases h
  | layPdiskP => exact all_whenConfigured (fun _ => all_whenStripe (fun _ => rfl) fun _ => trivial) fun _ => trivial
  | layPdiskQ => exact all_whenConfigured (fun _ => all_whenStripe (fun _ => rfl) fun _ => trivial) fun _ => trivial
  | layIspar =>
    exact all_whenConfigured (fun _ => all_whenDisk (fun _ => all_whenStripe (fun _ => Prog.finishes_ite rfl rfl)
      fun _ => trivial) fun _ => trivial) fun _ => trivial
  | layResolve =>
    exact all_whenConfigured (fun _ => all_whenDisk (fun _ => Prog.finishes_ite trivial rfl) fun _ => trivial)
      fun _ => trivial
  | init => exact absurd rfl hi
  | put => exact onlyRes_putProgram s
  | putraw =>
    unfold program putrawProgram
    exact all_transferChecks (fun _ _ _ _ _ _ _ => all_withBuffer fun _ _ => onlyRes_bsWrite rfl) fun _ _ _ => trivial
  | get => cases h
  | recSingleData =>
    exact onlyRes_recOne <| onlyRes_readData fun _ => onlyRes_bsRead fun _ => onlyRes_bsWrite rfl
  | recSingleParity => exact onlyRes_recOne <| onlyRes_readData fun _ => onlyRes_bsWrite rfl
  | recDoubleData =>
    refine onlyRes_recTwo <| all_whenRole (fun _ => onlyRes_readData fun _ => onlyRes_bsRead fun _ =>
      onlyRes_bsRead fun _ => ?_) fun _ => trivial
    split
    · trivial
    · exact onlyRes_bsWrite <| onlyRes_bsWrite rfl
  | recDoubleParity =>
    exact onlyRes_recTwo <| all_whenRole (fun _ => onlyRes_readData fun _ => onlyRes_bsWrite <| onlyRes_bsWrite rfl)
      fun _ => trivial
  | recDataAndParity =>
    exact onlyRes_recTwo <| onlyRes_readData fun _ => Prog.finishes_ite
      (onlyRes_bsRead fun _ => onlyRes_bsWrite <| onlyRes_bsWrite rfl)
      (onlyRes_bsRead fun _ => onlyRes_bsWrite <| onlyRes_bsWrite rfl)
  | check => exact all_whenConfigured (fun _ => onlyRes_checkFrom _ _ _ _) fun _ => trivial

/-! ### The commands with a buffer destination (R242, R365) -/

/-- Where the completion writes a buffer, it writes bytes 0.. of the target, no more than the target's length. -/
def Effects.StaysIn (p : Params) (target : Option (Nat × Nat)) (e : Effects) : Prop :=
  ∀ dst bytes, e.buf = some (dst, bytes) → ∃ len, target = some (dst, len) ∧ bytes.length ≤ len ∧ len ≤ p.maxBsize

theorem staysIn_of_no_buf {e : Effects} (h : e.buf = none) : e.StaysIn p target := by
  intro dst bytes he
  rw [h] at he
  cases he

theorem staysIn_target {dst len : Nat} {bytes : Block} {res : List (Fin 4 × Word)} (hb : bytes.length ≤ len)
    (hl : len ≤ p.maxBsize) : ({ res := res, buf := some (dst, bytes) } : Effects).StaysIn p (some (dst, len)) := by
  rintro _ _ ⟨⟩
  exact ⟨len, rfl, hb, hl⟩

/-- The checks of a block command bound its length by that of a buffer (R241). -/
theorem staysIn_blockChecks {c : Bool} {dst len : Nat} {k : Prog}
    (h : len ≤ s.params.maxBsize → k.Finishes (Effects.StaysIn s.params (some (dst, len)))) :
    (blockChecks (c && s.blockLenOk len) k).Finishes (Effects.StaysIn s.params (some (dst, len))) :=
  all_blockChecks (fun hok => h (blockLenOk_iff.1 (Bool.and_eq_true_iff.1 hok).2).2) fun _ => trivial

/-- A command writes no buffer bytes but those of its own destination, and these lie inside one buffer. -/
theorem program_staysIn (i : Instr) (hc : s.CfgLegal) :
    (program i s).Finishes (Effects.StaysIn s.params (bufferTarget i s)) := by
  by_cases hn : bufferTarget i s = none
  · by_cases hi : i = .init
    · subst hi
      exact Prog.finishes_ite trivial (Prog.finishes_ite trivial (staysIn_of_no_buf rfl))
    · exact (program_onlyRes hi hn).mono (fun e he => staysIn_of_no_buf (by rw [he])) (fun _ _ _ => id) fun _ => id
  · cases i with
    | blkXor =>
      exact staysIn_blockChecks fun hl => all_withBuffer fun x _ => all_withBuffer fun y hy =>
        staysIn_target ((xorBlock_length_le x y).trans_eq (State.bufBytes_length hy)) hl
    | blkScale =>
      exact staysIn_blockChecks fun hl => all_withBuffer fun x hx =>
        staysIn_target ((scaleBlock_length x _).trans (State.bufBytes_length hx)).le hl
    | parComputeP =>
      exact staysIn_blockChecks fun hl => all_withBuffers _ _ fun ds _ => staysIn_target (pParity_length_le _ ds) hl
    | parComputeQ =>
      exact staysIn_blockChecks fun hl => all_withBuffers _ _ fun ds _ => staysIn_target (qParity_length_le _ ds) hl
    | parUpdateP =>
      exact staysIn_blockChecks fun hl => all_withBuffer fun old _ => all_withBuffer fun new hnew =>
        all_withBuffer fun par _ =>
        staysIn_target ((xorBlock_length_le _ new).trans_eq (State.bufBytes_length hnew)) hl
    | parUpdateQ =>
      exact staysIn_blockChecks fun hl => all_withBuffer fun old _ => all_withBuffer fun new hnew =>
        all_withBuffer fun par _ =>
        staysIn_target ((qUpdate_length_le old new par _).trans_eq (State.bufBytes_length hnew)) hl
    | get =>
      unfold program getProgram
      refine all_transferChecks (fun stripe off hcfg _ _ _ hlen => all_bsRead trivial fun y =>
        staysIn_target (List.length_take_le _ y) ?_) fun _ _ _ => trivial
      simp only [State.operandsXfer] at hlen
      omega
    | _ => exact absurd rfl hn

/-! ### Every command -/

/-- What BUF holds after a command: what it held, or that with a run of bytes of the destination set. -/
theorem exec_buf (hc : s.CfgLegal) (h : exec i s = .next t) : t.params = s.params ∧ (t.buf = s.buf ∨
    ∃ dst len bytes, bufferTarget i s = some (dst, len) ∧ bytes.length ≤ len ∧ len ≤ s.params.maxBsize ∧
      t.buf = s.bufWith dst 0 bytes) := by
  rw [exec_eq_runCommand] at h
  obtain ⟨u, hu, -, -, hend⟩ := runCommand_spec (program_staysIn i hc) h
  rcases hend with ⟨e, he, rfl⟩ | ⟨kind, d, b, -, rfl⟩ | ⟨rfl, -⟩
  · refine ⟨hu.params, ?_⟩
    rw [complete_buf]
    split
    · exact .inl hu.buf
    · next dst bytes hb =>
      obtain ⟨len, htarget, hbytes, hlen⟩ := he dst bytes hb
      refine .inr ⟨dst, len, bytes, htarget, hbytes, hlen, ?_⟩
      rw [State.bufWith, State.bufWith, hu.buf, hu.params]
  · exact ⟨hu.params, .inl hu.buf⟩
  · exact ⟨hu.params, .inl hu.buf⟩

theorem bufByte_congr (hp : t.params = s.params) (hb : t.buf = s.buf) (b k : Nat) : t.bufByte b k = s.bufByte b k := by
  rw [State.bufByte, State.bufByte, hp, hb]

/-- Settles O14: the staged buffer write is the only one, and it stays in the destination. -/
theorem bufferFrame : Obligations.BufferFrame := by
  intro i s t hc h
  obtain ⟨hparams, hsame | ⟨dst, len, bytes, htarget, hbytes, hlen, hbuf⟩⟩ := exec_buf hc h
  · exact ⟨fun _ => hsame, fun b k _ _ => bufByte_congr hparams hsame b k⟩
  · refine ⟨fun hn => ?_, fun b k hk hout => ?_⟩
    · rw [hn] at htarget
      cases htarget
    · have hne := hout dst len htarget
      rw [bufByte_congr (s := { s with buf := s.bufWith dst 0 bytes }) hparams hbuf]
      exact s.bufByte_bufWith_other (by omega) hk (by omega)

end Sys2Proof.Machine

/-! ## The layout functions (R281 to R286) -/

namespace Sys2Proof.Machine

variable {n d s : Nat}

/-! ### The parity rotation (R284) -/

/-- R281 on integers, where (s + 1)(n - 1) - 1 is n - 2 - s up to a multiple of n. -/
theorem parityDisk_cast (hn : 0 < n) (s p : Nat) : (parityDisk n s p : Int) = ((n : Int) - 2 - s + p) % n := by
  have hring : ((s : Int) + 1) * ((n : Int) - 1) - 1 + p = (n : Int) - 2 - s + p + n * s := by ring
  rw [parityDisk, hring, Int.add_mul_emod_self_left, Int.toNat_of_nonneg (Int.emod_nonneg _ (by omega))]

theorem parityDisk_zero_cast (hn : 0 < n) (s : Nat) : (parityDisk n s 0 : Int) = ((n : Int) - 2 - s) % n := by
  rw [parityDisk_cast hn, Nat.cast_zero, add_zero]

theorem parityDisk_one_cast (hn : 0 < n) (s : Nat) : (parityDisk n s 1 : Int) = ((n : Int) - 1 - s) % n := by
  have hring : (n : Int) - 2 - s + (1 : Nat) = n - 1 - s := by push_cast; ring
  rw [parityDisk_cast hn, hring]

theorem parityDisk_one_eq (hn : 0 < n) (s : Nat) : parityDisk n s 1 = (parityDisk n s 0 + 1) % n := by
  rw [← Int.natCast_inj, parityDisk_cast hn, Int.natCast_emod, Nat.cast_add, parityDisk_zero_cast hn, Int.emod_add_emod]

/-- Which stripes have disk `d` as parity: stripe and disk enter the sum alike. -/
theorem parityDisk_eq_iff_dvd (hd : d < n) (s p : Nat) : parityDisk n s p = d ↔ (n : Int) ∣ s + d + 2 - p := by
  have hdn : (d : Int) = d % n := (Int.emod_eq_of_lt (by omega) (by omega)).symm
  have hdiff : (d : Int) - (n - 2 - s + p) = s + d + 2 - p - n := by ring
  calc parityDisk n s p = d
      ↔ ((n : Int) - 2 - s + p) % n = d % n := by rw [← hdn, ← parityDisk_cast (by omega), Int.natCast_inj]
    _ ↔ (n : Int) ∣ d - (n - 2 - s + p) := Int.modEq_iff_dvd
    _ ↔ (n : Int) ∣ s + d + 2 - p := by rw [hdiff, dvd_sub_self_right]

/-- Stripe and disk change places in the rotation. -/
theorem parityDisk_swap {j : Nat} (hd : d < n) (hj : j < n) (s p : Nat) :
    parityDisk n (s + j) p = d ↔ parityDisk n (s + d) p = j := by
  rw [parityDisk_eq_iff_dvd hd, parityDisk_eq_iff_dvd hj, Nat.cast_add, Nat.cast_add, add_right_comm (s : Int)]

theorem parityDisk_add_period (s p : Nat) : parityDisk n (s + n) p = parityDisk n s p := by
  have hring : (((s + n : Nat) : Int) + 1) * ((n : Int) - 1) - 1 + p =
      ((s : Int) + 1) * ((n : Int) - 1) - 1 + p + n * (n - 1) := by push_cast; ring
  rw [parityDisk, hring, Int.add_mul_emod_self_left, ← parityDisk]

/-- In any n consecutive stripes a disk is P once and Q once (R284(d)). -/
theorem parityDisk_once (hd : d < n) (s p : Nat) :
    ∃ j, j < n ∧ parityDisk n (s + j) p = d ∧ ∀ j' < n, parityDisk n (s + j') p = d → j' = j :=
  have hj := parityDisk_lt (Nat.zero_lt_of_lt hd) (s + d) p
  ⟨_, hj, (parityDisk_swap hd hj s p).2 rfl, fun _ hj' h => ((parityDisk_swap hd hj' s p).1 h).symm⟩

/-- The stripes of R284(d) as a residue. -/
theorem parityDisk_eq_iff_emod (hd : d < n) (j p : Nat) : parityDisk n j p = d ↔ (j : Int) % n = parityDisk n d p := by
  have hdiff : (j : Int) - (n - 2 - d + p) = j + d + 2 - p - n := by ring
  calc parityDisk n j p = d
      ↔ (n : Int) ∣ j - (n - 2 - d + p) := by rw [parityDisk_eq_iff_dvd hd, hdiff, dvd_sub_self_right]
    _ ↔ ((n : Int) - 2 - d + p) % n = j % n := Int.modEq_iff_dvd.symm
    _ ↔ (j : Int) % n = parityDisk n d p := by rw [parityDisk_cast (by omega), eq_comm]

/-- Disk `d` is parity in stripe `s + j` exactly if disk `j` is in stripe `s + d`. -/
theorem isParity_swap {j : Nat} (hd : d < n) (hj : j < n) (s : Nat) : isParity n d (s + j) = isParity n j (s + d) := by
  have hswap (p : Nat) : d = parityDisk n (s + j) p ↔ j = parityDisk n (s + d) p := by
    rw [eq_comm, parityDisk_swap hd hj, eq_comm]
  rw [Bool.eq_iff_iff, isParity_iff, isParity_iff, hswap, hswap]

theorem isParity_eq_false_iff : isParity n d s = false ↔ d ≠ parityDisk n s 0 ∧ d ≠ parityDisk n s 1 := by
  rw [Bool.eq_false_iff, Ne, isParity_iff, not_or]

theorem isParity_add_period (d s : Nat) : isParity n d (s + n) = isParity n d s := by
  rw [isParity, isParity, parityDisk_add_period, parityDisk_add_period]

/-- The stripes of a window of n in which disk `d` holds data, as offsets, are the data disks of one stripe. -/
theorem filter_window_eq_dataDisks (hd : d < n) (s : Nat) :
    (List.range n).filter (fun j => !isParity n d (s + j)) = dataDisks n (s + d) :=
  List.filter_congr fun _ hj => by rw [isParity_swap hd (List.mem_range.1 hj)]

/-- Settles O18: the rotation is n - 2 - s + p modulo n, which is symmetric in stripe and disk. -/
theorem parityRotation : Obligations.ParityRotation := by
  refine ⟨fun n hn s => ?_, by decide⟩
  have hpos : 0 < n := by omega
  have htwo : 2 ≤ n := by omega
  refine ⟨parityDisk_zero_cast hpos s, parityDisk_one_cast hpos s, parityDisk_one_eq hpos s, parityDisk_ne htwo s,
    length_dataDisks htwo s, fun p _ => parityDisk_add_period s p, fun d hd => ?_⟩
  refine ⟨parityDisk_once hd s 0, parityDisk_once hd s 1, fun j => ?_, fun j => ?_, ?_⟩
  · rw [parityDisk_eq_iff_emod hd, parityDisk_zero_cast hpos]
  · rw [parityDisk_eq_iff_emod hd, parityDisk_one_cast hpos]
  · rw [filter_window_eq_dataDisks hd, length_dataDisks htwo]

/-! ### The linear walk (R285) -/

/-- Disk `d` holds data in stripe `s`: the walk counts it. -/
abbrev Eligible (n d s : Nat) : Prop := isParity n d s = false

/-- The walk that stands at stripe `s`, with the eligible stripes below counted, finds each eligible stripe `s + m`. -/
theorem resolveWalk_count {st m : Nat} (hst : Eligible n d st) (hm : s + m = st) :
    resolveWalk n d (Nat.count (Eligible n d) st) (m + 1) s (Nat.count (Eligible n d) s) = some st := by
  induction m generalizing s with
  | zero =>
    obtain rfl : s = st := hm
    rw [resolveWalk, if_neg (Bool.eq_false_iff.1 hst), if_pos rfl]
  | succ m ih =>
    have hnext := ih (s := s + 1) (by omega)
    rw [resolveWalk]
    split
    · next hpar => rwa [Nat.count_succ_eq_count_iff.2 (ne_false_of_eq_true hpar)] at hnext
    · next hpar =>
      have hs : Eligible n d s := Bool.eq_false_iff.2 hpar
      rw [if_neg (Nat.count_strict_mono hs (by omega)).ne]
      rwa [Nat.count_succ_eq_succ_count_iff.2 hs] at hnext

/-- What the walk has found, it finds with more fuel. -/
theorem resolveWalk_mono {k fuel fuel' c st : Nat} (h : resolveWalk n d k fuel s c = some st) (hle : fuel ≤ fuel') :
    resolveWalk n d k fuel' s c = some st := by
  induction fuel generalizing s c fuel' with
  | zero => cases h
  | succ fuel ih =>
    obtain ⟨fuel', rfl⟩ : ∃ m, fuel' = m + 1 := ⟨fuel' - 1, by omega⟩
    have hle' : fuel ≤ fuel' := Nat.le_of_succ_le_succ hle
    rw [resolveWalk] at h ⊢
    split_ifs at h ⊢ with hpar hc
    · exact ih h hle'
    · exact h
    · exact ih h hle'

theorem resolveWalk_unique {k fuel fuel' c st st' : Nat} (h : resolveWalk n d k fuel s c = some st)
    (h' : resolveWalk n d k fuel' s c = some st') : st = st' :=
  Option.some_inj.1 <| (resolveWalk_mono h (Nat.le_max_left fuel fuel')).symm.trans
    (resolveWalk_mono h' (Nat.le_max_right fuel fuel'))

/-! ### The closed form (R286) -/

/-- The list E of R286 is the list of data disks of stripe `d`. -/
theorem dataResidues_eq_dataDisks (hn : 0 < n) (d : Nat) : dataResidues n d = dataDisks n d := by
  refine List.filter_congr fun e _ => ?_
  rw [← parityDisk_zero_cast hn, ← parityDisk_one_cast hn, Bool.eq_iff_iff, Bool.not_eq_true', isParity_eq_false_iff,
    Bool.and_eq_true, bne_iff_ne, bne_iff_ne, Nat.cast_injective.ne_iff, Nat.cast_injective.ne_iff]
  exact and_congr ne_comm ne_comm

theorem eligible_iff {j : Nat} (hd : d < n) (hj : j < n) : Eligible n d j ↔ isParity n j d = false := by
  have hswap := isParity_swap hd hj 0
  rw [Nat.zero_add, Nat.zero_add] at hswap
  rw [Eligible, hswap]

/-- In the first period the stripes that the walk counts below `e` are the data disks of stripe `d` below `e`. -/
theorem count_eligible {e : Nat} (hn : 2 ≤ n) (hd : d < n) (he : e ≤ n) :
    Nat.count (Eligible n d) e = ordinal n e d := by
  rw [ordinal, ← length_filter_range (parityDisk_ne hn d), ← List.countP_eq_length_filter, Nat.count]
  refine List.countP_congr fun j hj => ?_
  have hj' := List.mem_range.1 hj
  rw [decide_eq_true_iff, eligible_iff hd (by omega), isParity, Bool.not_eq_true']

/-- One period holds n - 2 eligible stripes (R284(d)). -/
theorem count_eligible_period (hn : 2 ≤ n) (hd : d < n) : Nat.count (Eligible n d) n = n - 2 := by
  rw [count_eligible hn hd le_rfl, ordinal, if_pos (parityDisk_lt (by omega) d 0), if_pos (parityDisk_lt (by omega) d 1),
    Nat.sub_sub]

theorem eligible_periods_add (q e : Nat) : Eligible n d (q * n + e) ↔ Eligible n d e := by
  induction q with
  | zero => rw [Nat.zero_mul, Nat.zero_add]
  | succ q ih => rw [← ih, Nat.succ_mul, Nat.add_right_comm, Eligible, isParity_add_period]

theorem count_eligible_periods_add (hn : 2 ≤ n) (hd : d < n) (q e : Nat) :
    Nat.count (Eligible n d) (q * n + e) = q * (n - 2) + Nat.count (Eligible n d) e := by
  induction q with
  | zero => rw [Nat.zero_mul, Nat.zero_mul, Nat.zero_add, Nat.zero_add]
  | succ q ih =>
    rw [Nat.succ_mul, Nat.add_right_comm, Nat.count_add', count_eligible_period hn hd]
    simp only [Eligible, isParity_add_period]
    rw [ih, Nat.succ_mul, Nat.add_right_comm]

/-- Entry `r` of E is an eligible stripe of the first period, with `r` eligible stripes below it. -/
theorem dataResidues_getD {r : Nat} (hn : 3 ≤ n) (hd : d < n) (hr : r < n - 2) :
    Eligible n d ((dataResidues n d).getD r 0) ∧ Nat.count (Eligible n d) ((dataResidues n d).getD r 0) = r := by
  have hlen : r < (dataDisks n d).length := by rwa [length_dataDisks (by omega)]
  rw [dataResidues_eq_dataDisks (by omega), List.getD_eq_getElem _ _ hlen]
  obtain ⟨he, hpar⟩ := mem_dataDisks.1 (List.getElem_mem hlen)
  refine ⟨(eligible_iff hd he).2 hpar, ?_⟩
  rw [count_eligible (by omega) hd he.le]
  obtain ⟨hlt, heq⟩ := List.getElem?_eq_some_iff.1 (dataDisks_ordinal (by omega) he hpar)
  exact (dataDisks_nodup n d).getElem_inj_iff.1 heq

/-- The stripe of the closed form is the eligible one with `pos / bs` eligible stripes below it. -/
theorem resolve_spec (hn : 3 ≤ n) (hd : d < n) (bs pos : Nat) :
    Eligible n d (resolve n bs d pos).1 ∧ Nat.count (Eligible n d) (resolve n bs d pos).1 = pos / bs := by
  obtain ⟨helig, hcount⟩ := dataResidues_getD hn hd (Nat.mod_lt (pos / bs) (show 0 < n - 2 by omega))
  refine ⟨(eligible_periods_add _ _).2 helig, ?_⟩
  rw [resolve, count_eligible_periods_add (by omega) hd, hcount, Nat.div_add_mod']

theorem resolveWalk_resolve (hn : 3 ≤ n) (hd : d < n) (bs pos : Nat) :
    resolveWalk n d (pos / bs) ((resolve n bs d pos).1 + 1) 0 0 = some (resolve n bs d pos).1 := by
  obtain ⟨helig, hcount⟩ := resolve_spec hn hd bs pos
  have hwalk := resolveWalk_count helig (Nat.zero_add _)
  rwa [hcount, Nat.count_zero] at hwalk

/-- Settles O19: the walk and the closed form count eligible stripes alike, and a later block has more of them below. -/
theorem resolveIsTheWalk : Obligations.ResolveIsTheWalk := by
  intro n bs d pos hn hd
  obtain ⟨helig, hcount⟩ := resolve_spec hn hd bs pos
  refine ⟨⟨_, resolveWalk_resolve hn hd bs pos⟩, rfl, helig, fun hbs => ?_⟩
  refine Nat.lt_of_count_lt_count (p := Eligible n d) ?_
  rw [hcount, (resolve_spec hn hd bs (pos + bs)).2, Nat.add_div_right _ hbs]
  exact Nat.lt_succ_self _

end Sys2Proof.Machine

/-! ## The layout commands (R287 to R291) -/

namespace Sys2Proof.Machine

open Sys2Proof.Spec

variable {s : State} {k : Prog}

/-! ### The operand checks (R287) -/

theorem wordOf_u (s : State) (i : Fin 8) : wordOf (s.u i) = s.argLatched i :=
  BitVec.eq_of_toNat_eq (wordOf_u_toNat s i)

theorem whenConfigured_fail (h : s.n < 3) : whenConfigured s k = .raise .layout noContext noContext := if_pos h

theorem whenConfigured_pass (h : 3 ≤ s.n) : whenConfigured s k = k := if_neg (Nat.not_lt.2 h)

theorem whenDisk_fail {i : Fin 8} (h : s.n ≤ s.u i) :
    whenDisk s (s.u i) k = .raise .layout (s.argLatched i) noContext := by
  rw [whenDisk, if_pos h, wordOf_u]

theorem whenDisk_pass {d : Nat} (h : d < s.n) : whenDisk s d k = k := if_neg (Nat.not_le.2 h)

theorem whenStripe_fail {w : Word} {i : Fin 8} (h : s.nb ≤ s.u i) :
    whenStripe s w (s.u i) k = .raise .layout w (s.argLatched i) := by
  rw [whenStripe, if_pos h, wordOf_u]

theorem whenStripe_pass {w : Word} {stripe : Nat} (h : stripe < s.nb) : whenStripe s w stripe k = k :=
  if_neg (Nat.not_le.2 h)

/-! ### The parity disks of a stripe (R288, R289) -/

/-- The program of LAY_PDISK_P and LAY_PDISK_Q, with `p` the policy (R288, R289). -/
def layPdiskProgram (p : Nat) (s : State) : Prog :=
  whenConfigured s <| whenStripe s noContext (s.u 0) <| .done { res := [(0, wordOf (parityDisk s.n (s.u 0) p))] }

theorem program_layPdiskP (s : State) : program .layPdiskP s = layPdiskProgram 0 s := rfl

theorem program_layPdiskQ (s : State) : program .layPdiskQ s = layPdiskProgram 1 s := rfl

theorem wordOf_parityDisk (hn : 0 < s.n) (stripe p : Nat) : wordOf (parityDisk s.n stripe p) =
    BitVec.ofInt 32 ((((stripe : Int) + 1) * ((s.n : Int) - 1) - 1 + p) % s.n) := by
  rw [wordOf, ← BitVec.ofInt_natCast, parityDisk, Int.toNat_of_nonneg (Int.emod_nonneg _ (by omega))]

/-- Settles O15: the two commands differ in the policy only. -/
theorem layPdiskResult : Obligations.LayPdiskResult := by
  refine ⟨decode_encode .layPdiskP, decode_encode .layPdiskQ, fun s hs i p hip => ?_⟩
  obtain ⟨p, rfl, hp⟩ : ∃ q : Nat, p = q ∧ program i s = layPdiskProgram q s := by
    rcases hip with ⟨rfl, rfl⟩ | ⟨rfl, rfl⟩
    · exact ⟨0, rfl, program_layPdiskP s⟩
    · exact ⟨1, rfl, program_layPdiskQ s⟩
  refine ⟨fun hn => exec_of_raise hs (hp.trans (whenConfigured_fail hn)),
    fun hn hst => exec_of_raise hs (hp.trans ((whenConfigured_pass hn).trans (whenStripe_fail hst))), fun hn hst => ?_⟩
  rw [← wordOf_parityDisk (by omega)]
  exact exec_of_done (ws := [(0, _)]) hs (hp.trans ((whenConfigured_pass hn).trans (whenStripe_pass hst)))

/-! ### The role of a block (R290) -/

/-- Past its checks LAY_ISPAR answers the role. -/
def layIsparAnswer (s : State) : Prog :=
  if isParity s.n (s.u 0) (s.u 1) then
    .done { res := [(0, 1#32), (1, if s.u 0 = parityDisk s.n (s.u 1) 0 then 0#32 else 1#32)] }
  else
    .done { res := [(0, 0#32), (1, wordOf (ordinal s.n (s.u 0) (s.u 1)))] }

theorem layIsparProgram_pass (hn : 3 ≤ s.n) (hd : s.u 0 < s.n) (hst : s.u 1 < s.nb) :
    layIsparProgram s = layIsparAnswer s :=
  (whenConfigured_pass hn).trans ((whenDisk_pass hd).trans (whenStripe_pass hst))

/-- Settles O16: the checks in their order, then the three roles. -/
theorem layIsparResult : Obligations.LayIsparResult := by
  refine ⟨decode_encode .layIspar, fun s hs => ⟨fun hn => exec_of_raise hs (whenConfigured_fail hn),
    fun hn hd => exec_of_raise hs ((whenConfigured_pass hn).trans (whenDisk_fail hd)), fun hn hd hst => ?_,
    fun hn hd hst => ?_⟩⟩
  · have hp : layIsparProgram s = .raise .layout (wordOf (s.u 0)) (s.argLatched 1) :=
      (whenConfigured_pass hn).trans ((whenDisk_pass hd).trans (whenStripe_fail hst))
    rw [wordOf_u] at hp
    exact exec_of_raise hs hp
  · have hp := layIsparProgram_pass hn hd hst
    refine ⟨fun (hP : s.u 0 = parityDisk s.n (s.u 1) 0) => ?_, fun hQ => ?_, fun hP hQ => ?_⟩
    · have hpar : isParity s.n (s.u 0) (s.u 1) = true := isParity_iff.2 (.inl hP)
      rw [layIsparAnswer, if_pos hpar, if_pos hP] at hp
      exact exec_of_done (i := .layIspar) hs hp
    · have hpar : isParity s.n (s.u 0) (s.u 1) = true := isParity_iff.2 (.inr hQ)
      have hP : s.u 0 ≠ parityDisk s.n (s.u 1) 0 := hQ ▸ (parityDisk_ne (by omega) _).symm
      rw [layIsparAnswer, if_pos hpar, if_neg hP] at hp
      exact exec_of_done (i := .layIspar) hs hp
    · have hdata : isParity s.n (s.u 0) (s.u 1) = false := isParity_eq_false_iff.2 ⟨hP, hQ⟩
      rw [layIsparAnswer, if_neg (Bool.eq_false_iff.1 hdata)] at hp
      exact ⟨_, dataDisks_ordinal (by omega) hd hdata, exec_of_done (i := .layIspar) hs hp⟩

/-! ### The address of a position (R291) -/

theorem layResolveProgram_pass (hn : 3 ≤ s.n) (hd : s.u 0 < s.n) : layResolveProgram s =
    if s.nb ≤ (target s).1 then .raise .bounds (s.argLatched 0) (stripeContext (target s).1)
    else .done { res := [(0, wordOf (target s).1), (1, wordOf (target s).2)] } := by
  rw [← wordOf_u]
  exact (whenConfigured_pass hn).trans (whenDisk_pass hd)

/-- Settles O17: the closed form is the walk, which has one answer whatever its fuel. -/
theorem layResolveResult : Obligations.LayResolveResult := by
  refine ⟨decode_encode .layResolve, fun s hs => ⟨fun hn => exec_of_raise hs (whenConfigured_fail hn),
    fun hn hd => exec_of_raise hs ((whenConfigured_pass hn).trans (whenDisk_fail hd)),
    fun hn hd => ⟨_, _, resolveWalk_resolve hn hd _ _⟩, fun hn hd fuel st hwalk => ?_⟩⟩
  obtain rfl : (target s).1 = st := resolveWalk_unique (resolveWalk_resolve hn hd s.bs (s.u 1)) hwalk
  have hp := layResolveProgram_pass hn hd
  exact ⟨fun hst => exec_of_raise hs (hp.trans (if_pos hst)),
    fun hst => exec_of_done (ws := [(0, _), (1, _)]) hs (hp.trans (if_neg (Nat.not_le.2 hst)))⟩

end Sys2Proof.Machine

/-! ## Parities without the blocks that are lost (R243, R244, R312) -/

namespace Sys2Proof.Machine

variable {len j k : Nat} {x y : Block} {ds : List Block}

/-! ### The XOR of blocks -/

theorem xorBlock_length (hx : x.length = len) (hy : y.length = len) :
    (xorBlock x y).length = len := by
  rw [xorBlock, List.length_zipWith, hx, hy, Nat.min_self]

theorem xorBlock_zeroBlock (h : x.length = len) : xorBlock x (zeroBlock len) = x := by
  subst h
  refine List.ext_getElem (by simp [xorBlock, zeroBlock]) fun j _ _ => ?_
  simp [xorBlock, zeroBlock]

theorem xorBlock_cancel_left (h : x.length = y.length) : xorBlock x (xorBlock x y) = y := by
  rw [xorBlock_comm, xorBlock_xorBlock_cancel h]

/-! ### The P syndrome -/

/-- P without one block is P with that block taken out by an XOR. -/
theorem pParity_set_zero (hj : ds[j]? = some x) (h : ∀ d ∈ ds, d.length = len) :
    pParity len (ds.set j (zeroBlock len)) = xorBlock (pParity len ds) x := by
  obtain ⟨hlt, rfl⟩ := List.getElem?_eq_some_iff.1 hj
  rw [← pUpdate_pParity _ hlt h, pUpdate]
  exact xorBlock_zeroBlock (xorBlock_length (pParity_length h) (h _ (List.getElem_mem hlt)))

/-- P and the P syndrome differ by the block that is left out. -/
theorem pParity_xor_set_zero (hj : ds[j]? = some x) (h : ∀ d ∈ ds, d.length = len) :
    xorBlock (pParity len ds) (pParity len (ds.set j (zeroBlock len))) = x := by
  rw [pParity_set_zero hj h]
  exact xorBlock_cancel_left ((pParity_length h).trans (h x (List.mem_of_getElem? hj)).symm)

/-- With two blocks left out they differ by the XOR of the two. -/
theorem pParity_xor_set_zero_two (hj : ds[j]? = some x) (hk : ds[k]? = some y) (hne : k ≠ j)
    (h : ∀ d ∈ ds, d.length = len) :
    xorBlock (pParity len ds) (pParity len ((ds.set k (zeroBlock len)).set j (zeroBlock len))) = xorBlock x y := by
  have hx : x.length = len := h x (List.mem_of_getElem? hj)
  have hy : y.length = len := h y (List.mem_of_getElem? hk)
  have hset : ∀ d ∈ ds.set k (zeroBlock len), d.length = len := fun d hd =>
    (List.mem_or_eq_of_mem_set hd).elim (h d) fun hz => hz ▸ List.length_replicate
  rw [pParity_set_zero ((List.getElem?_set_ne hne).trans hj) hset, pParity_set_zero hk h, xorBlock_assoc,
    xorBlock_cancel_left ((pParity_length h).trans (xorBlock_length hy hx).symm), xorBlock_comm]

/-! ### The Q syndrome -/

theorem scaleBlock_zeroBlock (len : Nat) (c : Byte) : scaleBlock (zeroBlock len) c = zeroBlock len := by
  rw [scaleBlock, zeroBlock, List.map_replicate, gfMul_zero_right]

theorem scaleBlock_scaleBlock_neg (x : Block) (k : Int) : scaleBlock (scaleBlock x (gfPow k)) (gfPow (-k)) = x := by
  have hinv : gfMul (gfPow (-k)) (gfPow k) = 0x01#8 := by rw [gfMul_comm, gfMul_gfPow_neg]
  rw [scaleBlock, scaleBlock, List.map_map]
  exact (List.map_congr_left fun a _ => gfMul_gfMul_of_inverse hinv a).trans (List.map_id x)

/-- The blocks scaled by the powers of g in the order of the list: Q is their P (R244). -/
def weighted (ds : List Block) : List Block := ds.mapIdx fun j d => scaleBlock d (gfPow (j : Nat))

theorem qParity_eq_weighted (len : Nat) (ds : List Block) : qParity len ds = pParity len (weighted ds) :=
  qParity_eq_pParity len ds

theorem weighted_set_zero (ds : List Block) (j len : Nat) :
    weighted (ds.set j (zeroBlock len)) = (weighted ds).set j (zeroBlock len) := by
  rw [weighted, List.mapIdx_set, scaleBlock_zeroBlock, weighted]

theorem weighted_getElem? (hj : ds[j]? = some x) : (weighted ds)[j]? = some (scaleBlock x (gfPow (j : Nat))) := by
  rw [weighted, List.getElem?_mapIdx, hj, Option.map_some]

theorem length_of_mem_weighted (h : ∀ d ∈ ds, d.length = len) : ∀ d ∈ weighted ds, d.length = len := by
  intro d hd
  obtain ⟨i, hi, rfl⟩ := List.mem_mapIdx.1 hd
  rw [scaleBlock_length, h _ (List.getElem_mem hi)]

theorem qParity_length (h : ∀ d ∈ ds, d.length = len) : (qParity len ds).length = len :=
  (qParity_eq_weighted len ds).symm ▸ pParity_length (length_of_mem_weighted h)

/-- Q and the Q syndrome differ by the scaled block that is left out. -/
theorem qParity_xor_set_zero (hj : ds[j]? = some x) (h : ∀ d ∈ ds, d.length = len) :
    xorBlock (qParity len ds) (qParity len (ds.set j (zeroBlock len))) = scaleBlock x (gfPow (j : Nat)) := by
  rw [qParity_eq_weighted, qParity_eq_weighted, weighted_set_zero]
  exact pParity_xor_set_zero (weighted_getElem? hj) (length_of_mem_weighted h)

theorem qParity_xor_set_zero_two (hj : ds[j]? = some x) (hk : ds[k]? = some y) (hne : k ≠ j)
    (h : ∀ d ∈ ds, d.length = len) :
    xorBlock (qParity len ds) (qParity len ((ds.set k (zeroBlock len)).set j (zeroBlock len))) =
      xorBlock (scaleBlock x (gfPow (j : Nat))) (scaleBlock y (gfPow (k : Nat))) := by
  rw [qParity_eq_weighted, qParity_eq_weighted, weighted_set_zero, weighted_set_zero]
  exact pParity_xor_set_zero_two (weighted_getElem? hj) (weighted_getElem? hk) hne (length_of_mem_weighted h)

/-! ### Two lost data blocks (R209, R213, R315) -/

theorem xor_xor_xor_cancel (a b c : Byte) : a ^^^ b ^^^ (c ^^^ b) = a ^^^ c := by
  rw [BitVec.xor_comm c, ← BitVec.xor_assoc, BitVec.xor_assoc a, BitVec.xor_self, BitVec.xor_zero]

theorem gfMul_left_cancel {c a b : Byte} (hc : c ≠ 0#8) (h : gfMul c a = gfMul c b) : a = b := by
  rw [← BitVec.xor_eq_zero_iff] at h ⊢
  rw [← gfMul_xor_right, gfMul_eq_zero_iff] at h
  exact h.resolve_left hc

/-- The 2x2 system of R209 has one solution: its divisor takes the first unknown of R213 and `a` to the same byte. -/
theorem solve2_unique {x y : Int} (h : x % 255 ≠ y % 255) (a b : Byte) :
    solve2 x y (a ^^^ b) (gfMul (gfPow x) a ^^^ gfMul (gfPow y) b) = some (a, b) := by
  obtain ⟨A, B, hab, hA, hB⟩ := ddCoeffs_spec h
  have hx : gfMul (gfPow (-x)) (gfPow x) = 0x01#8 := by rw [gfMul_comm, gfMul_gfPow_neg]
  have hy : gfMul (gfPow (-x)) (gfPow y) = gfPow (y - x) := by rw [← gfPow_add, neg_add_eq_sub]
  have hdx : gfMul A (a ^^^ b) ^^^ gfMul B (gfMul (gfPow x) a ^^^ gfMul (gfPow y) b) = a := by
    refine gfMul_left_cancel (gfPow_xor_one_ne_zero h) ?_
    calc gfMul (gfPow (y - x) ^^^ 0x01#8) (gfMul A (a ^^^ b) ^^^ gfMul B (gfMul (gfPow x) a ^^^ gfMul (gfPow y) b))
      _ = gfMul (gfPow (y - x)) (a ^^^ b) ^^^ gfMul (gfPow (-x)) (gfMul (gfPow x) a ^^^ gfMul (gfPow y) b) := by
        rw [gfMul_xor_right, ← gfMul_assoc, ← gfMul_assoc, hA, hB]
      _ = gfMul (gfPow (y - x)) a ^^^ gfMul (gfPow (y - x)) b ^^^ (a ^^^ gfMul (gfPow (y - x)) b) := by
        rw [gfMul_xor_right, gfMul_xor_right, ← gfMul_assoc, ← gfMul_assoc, hx, hy, gfMul_one_left]
      _ = gfMul (gfPow (y - x) ^^^ 0x01#8) a := by
        rw [xor_xor_xor_cancel, gfMul_xor_left, gfMul_one_left]
  rw [solve2, hab]
  simp only [solveWith, hdx]
  rw [BitVec.xor_comm a b, BitVec.xor_assoc, BitVec.xor_self, BitVec.xor_zero]

theorem solveBlocks_length (ab : Byte × Byte) {pd qd : Block} (hp : pd.length = len) (hq : qd.length = len) :
    (solveBlocks ab pd qd).1.length = len ∧ (solveBlocks ab pd qd).2.length = len := by
  simp only [solveBlocks, List.length_zipWith, hp, hq, Nat.min_self, and_self]

/-- Every byte of the two solved blocks is `solve2` of the bytes of the two differences (R213, R315). -/
theorem solveBlocks_bytes {x y : Int} {ab : Byte × Byte} (hab : ddCoeffs x y = some ab) {pd qd : Block}
    (hp : pd.length = len) (hq : qd.length = len) : ∀ j < len, ∃ p q, pd[j]? = some p ∧ qd[j]? = some q ∧
      ∃ dx dy, solve2 x y p q = some (dx, dy) ∧ (solveBlocks ab pd qd).1[j]? = some dx ∧
        (solveBlocks ab pd qd).2[j]? = some dy := by
  intro j hj
  have hpj : pd[j]? = some pd[j] := List.getElem?_eq_getElem (hp ▸ hj)
  have hqj : qd[j]? = some qd[j] := List.getElem?_eq_getElem (hq ▸ hj)
  refine ⟨_, _, hpj, hqj, (solveWith ab pd[j] qd[j]).1, (solveWith ab pd[j] qd[j]).2, ?_, ?_, ?_⟩
  · rw [solve2, hab]
  · rw [solveBlocks, List.getElem?_zipWith, hpj, hqj]
  · rw [solveBlocks, List.getElem?_zipWith, hpj, hqj]

/-- The two blocks solved byte by byte are the two lost ones. -/
theorem eq_of_solve2 {j k : Int} {a b bx by_ : Block} (hmod : j % 255 ≠ k % 255) (ha : a.length = len)
    (hb : b.length = len) (hbx : bx.length = len) (hby : by_.length = len)
    (h : ∀ i < len, ∃ p q, (xorBlock a b)[i]? = some p ∧
      (xorBlock (scaleBlock a (gfPow j)) (scaleBlock b (gfPow k)))[i]? = some q ∧
      ∃ dx dy, solve2 j k p q = some (dx, dy) ∧ bx[i]? = some dx ∧ by_[i]? = some dy) : bx = a ∧ by_ = b := by
  have hbyte : ∀ i < len, bx[i]? = a[i]? ∧ by_[i]? = b[i]? := by
    intro i hi
    obtain ⟨p, q, hp, hq, dx, dy, hsolve, hdx, hdy⟩ := h i hi
    have hai := List.getElem?_eq_getElem (l := a) (i := i) (by omega)
    have hbi := List.getElem?_eq_getElem (l := b) (i := i) (by omega)
    rw [xorBlock, List.getElem?_zipWith, hai, hbi] at hp
    rw [xorBlock, List.getElem?_zipWith, scaleBlock, scaleBlock, List.getElem?_map, List.getElem?_map, hai, hbi] at hq
    cases hp
    cases hq
    rw [solve2_unique hmod] at hsolve
    cases hsolve
    exact ⟨hdx.trans hai.symm, hdy.trans hbi.symm⟩
  exact ⟨List.ext_getElem?' fun i hi => (hbyte i (by omega)).1,
    List.ext_getElem?' fun i hi => (hbyte i (by omega)).2⟩

end Sys2Proof.Machine

/-! ## The checks of the recovery commands (R310) -/

namespace Sys2Proof.Machine

open Sys2Proof.Spec

variable {s : State} {i : Instr} {k : Prog}

/-- The program that raises the error, where there is one. -/
def Prog.unlessError (e : Option (ErrorKind × Word × Word)) (k : Prog) : Prog :=
  match e with
  | none => k
  | some (kind, d, b) => .raise kind d b

theorem Prog.unlessError_none : Prog.unlessError none k = k := rfl

theorem Prog.unlessError_some (kind : ErrorKind) (d b : Word) :
    Prog.unlessError (some (kind, d, b)) k = .raise kind d b := rfl

/-- The last check of R310 with its error and context (R313 to R317). -/
def roleFailure (i : Instr) (s : State) : Option (ErrorKind × Word × Word) :=
  (roleError i s).map fun d => (.recoveryPrecondition, d, s.argLatched 2)

/-! ### The role checks (R310 check 7, R313 to R317) -/

theorem whenRole_eq {ok : Bool} {d : Fin 8} : whenRole ok (s.u d) (s.u 2) k =
    if ok then k else .raise .recoveryPrecondition (s.argLatched d) (s.argLatched 2) := by
  rw [whenRole, wordOf_u, wordOf_u]

theorem whenRole_recSingleData :
    whenRole (!isParity s.n (s.u 1) (s.u 2)) (s.u 1) (s.u 2) k = .unlessError (roleFailure .recSingleData s) k := by
  rw [whenRole_eq, roleFailure, roleError]
  cases isParity s.n (s.u 1) (s.u 2) <;> rfl

theorem whenRole_recSingleParity :
    whenRole (isParity s.n (s.u 1) (s.u 2)) (s.u 1) (s.u 2) k = .unlessError (roleFailure .recSingleParity s) k := by
  rw [whenRole_eq, roleFailure, roleError]
  cases isParity s.n (s.u 1) (s.u 2) <;> rfl

theorem whenRole_recDoubleData :
    (whenRole (!isParity s.n (s.u 1) (s.u 2)) (s.u 1) (s.u 2) <|
      whenRole (!isParity s.n (s.u 3) (s.u 2)) (s.u 3) (s.u 2) k) = .unlessError (roleFailure .recDoubleData s) k := by
  rw [whenRole_eq, whenRole_eq, roleFailure, roleError]
  cases isParity s.n (s.u 1) (s.u 2) <;> cases isParity s.n (s.u 3) (s.u 2) <;> rfl

theorem whenRole_recDoubleParity :
    (whenRole (isParity s.n (s.u 1) (s.u 2)) (s.u 1) (s.u 2) <|
      whenRole (isParity s.n (s.u 3) (s.u 2)) (s.u 3) (s.u 2) k) = .unlessError (roleFailure .recDoubleParity s) k := by
  rw [whenRole_eq, whenRole_eq, roleFailure, roleError]
  cases isParity s.n (s.u 1) (s.u 2) <;> cases isParity s.n (s.u 3) (s.u 2) <;> rfl

theorem whenRole_recDataAndParity :
    whenRole (isParity s.n (s.u 1) (s.u 2) != isParity s.n (s.u 3) (s.u 2)) (s.u 3) (s.u 2) k =
      .unlessError (roleFailure .recDataAndParity s) k := by
  rw [whenRole_eq, roleFailure, roleError]
  cases isParity s.n (s.u 1) (s.u 2) <;> cases isParity s.n (s.u 3) (s.u 2) <;> rfl

/-! ### The checks before it (R310 checks 1 to 6) -/

theorem Prog.unlessError_ite {c : Prop} [Decidable c] {kind : ErrorKind} {d b : Word}
    {e : Option (ErrorKind × Word × Word)} :
    Prog.unlessError (if c then some (kind, d, b) else e) k =
      if c then .raise kind d b else .unlessError e k := by
  split <;> rfl

/-- A case that needs one block raises the first error of R310, or goes on with what follows the role check. -/
theorem recoveryChecksOne_eq (hi : recoveryNeed i = some 1) :
    recoveryChecksOne s s.operandsRec (.unlessError (roleFailure i s) k) = .unlessError (recoveryError i s) k := by
  simp only [recoveryError, roleFailure, Prog.unlessError_ite, hi, Ne, Option.some_inj, OfNat.one_ne_ofNat, false_and,
    if_false, ← wordOf_u]
  rfl

/-- A case that needs two blocks likewise. -/
theorem recoveryChecksTwo_eq (hi : recoveryNeed i = some 2) :
    recoveryChecksTwo s s.operandsRec (.unlessError (roleFailure i s) k) = .unlessError (recoveryError i s) k := by
  simp only [recoveryError, roleFailure, Prog.unlessError_ite, hi, Ne, Option.some_inj, true_and, ← wordOf_u]
  rfl

/-- The program of each recovery command is its first error, or what follows its checks. -/
theorem program_recovery (hi : recoveryNeed i ≠ none) : ∃ k, program i s = .unlessError (recoveryError i s) k := by
  cases i with
  | recSingleData => exact ⟨_, (congrArg _ whenRole_recSingleData).trans (recoveryChecksOne_eq rfl)⟩
  | recSingleParity => exact ⟨_, (congrArg _ whenRole_recSingleParity).trans (recoveryChecksOne_eq rfl)⟩
  | recDoubleData => exact ⟨_, (congrArg _ whenRole_recDoubleData).trans (recoveryChecksTwo_eq rfl)⟩
  | recDoubleParity => exact ⟨_, (congrArg _ whenRole_recDoubleParity).trans (recoveryChecksTwo_eq rfl)⟩
  | recDataAndParity => exact ⟨_, (congrArg _ whenRole_recDataAndParity).trans (recoveryChecksTwo_eq rfl)⟩
  | _ => exact absurd rfl hi

/-- Settles O29: the program is the error of the first check that fails. -/
theorem recoveryErrors : Obligations.RecoveryErrors := by
  intro i s hi hs kind d b he
  obtain ⟨k, hk⟩ := program_recovery (s := s) hi
  rw [he] at hk
  exact exec_of_raise hs hk

end Sys2Proof.Machine

/-! ## Runs whose requests are all answered with OK (R106, R107, R311, U5) -/

namespace Sys2Proof.Machine

open Sys2Proof.Spec

variable {s : State} {st N k d : Nat} {p : Prog} {o : Host.Outcome State Fault Refusal}

/-- The next `N` requests for blocks of the stripe are answered with OK. -/
structure State.Serves (s : State) (stripe N : Nat) : Prop where
  covers : s.StoreCovers
  stripe_lt : stripe < s.nb
  answers : s.AnswersOk N

theorem State.Serves.stored (h : s.Serves st N) (d : Nat) (x : Block) : (s.stored d st 0 x).Serves st N :=
  ⟨h.covers, h.stripe_lt, h.answers⟩

/-- `s` after `k` answers, wherever the sequencer stands. -/
def State.used (s : State) (k : Nat) (q : Sequencer) : State := { s with answers := s.answers.drop k, seq := q }

/-- From `s` after `k` answers the program ends in `o`. -/
def Prog.RunsTo (p : Prog) (s : State) (k : Nat) (o : Host.Outcome State Fault Refusal) : Prop :=
  ∀ q, p.run (s.used k q) = o

theorem Prog.RunsTo.run (h : p.RunsTo s 0 o) : p.run s = o := h s.seq

theorem State.AnswersOk.drop_of_lt (h : s.AnswersOk N) (hk : k < N) :
    s.answers.drop k = .ok :: s.answers.drop (k + 1) := (h.mono (Nat.succ_le_of_lt hk)).drop

/-- A READ of a whole block gives its bytes and uses one answer (R106). -/
theorem runsTo_read {f : Block → Prog} (h : s.Serves st N) (hd : d < s.n) (hk : k < N)
    (hf : (f (s.diskBytes d st 0 s.bs)).RunsTo s (k + 1) o) : (bsRead d st 0 s.bs f).RunsTo s k o := fun q =>
  (run_bsRead (s := s.used k q) (h.answers.drop_of_lt hk)
    (h.covers.inGeometry hd h.stripe_lt (Nat.zero_add _).le)).trans (hf _)

/-- A WRITE of a whole block stores it and uses one answer (R107). -/
theorem runsTo_write {x : Block} (h : s.Serves st N) (hd : d < s.n) (hx : x.length ≤ s.bs) (hk : k < N)
    (hp : p.RunsTo (s.stored d st 0 x) (k + 1) o) : (bsWrite d st 0 x p).RunsTo s k o := fun q =>
  (run_bsWrite (s := s.used k q) (h.answers.drop_of_lt hk)
    (h.covers.inGeometry hd h.stripe_lt ((Nat.zero_add _).trans_le hx))).trans (hp _)

/-- `read_data` gives the surviving data blocks and uses one answer for each (R311). -/
theorem runsTo_readData {skip : List Nat} {f : List Block → Prog} (h : s.Serves st N)
    (hk : k + readCount skip (dataDisks s.n st) ≤ N)
    (hf : (f (s.survivors st skip)).RunsTo s (k + readCount skip (dataDisks s.n st)) o) :
    (readData s.bs st skip (dataDisks s.n st) f).RunsTo s k o := by
  intro q
  have ha : (s.used k q).AnswersOk (readCount skip (dataDisks s.n st)) := by
    have htake := congrArg (List.drop k) (h.answers.mono hk)
    rwa [List.drop_take, List.drop_replicate, Nat.add_sub_cancel_left] at htake
  obtain ⟨q', hq⟩ := run_readData (s := s.used k q) (skip := skip) (dataDisks s.n st) (k := f) h.covers
    (fun d hd => (mem_dataDisks.1 hd).1) h.stripe_lt ha
  refine hq.trans (Eq.trans ?_ (hf q'))
  rw [State.used, List.drop_drop]
  rfl

theorem runsTo_if_pos {c : Prop} [Decidable c] {p' : Prog} (hc : c) (h : p.RunsTo s k o) :
    (if c then p else p').RunsTo s k o := by rwa [if_pos hc]

theorem runsTo_if_neg {c : Prop} [Decidable c] {p' : Prog} (hc : ¬c) (h : p.RunsTo s k o) :
    (if c then p' else p).RunsTo s k o := by rwa [if_neg hc]

/-- Of the n - 2 data blocks of a stripe `read_data` reads all but the skipped ones. -/
theorem readCount_add_length (hn : 2 ≤ s.n) {skip : List Nat} (hnd : skip.Nodup)
    (hskip : ∀ d ∈ skip, d ∈ dataDisks s.n st) : readCount skip (dataDisks s.n st) + skip.length = s.n - 2 := by
  have hperm : ((dataDisks s.n st).filter skip.contains).Perm skip := by
    refine (List.perm_ext_iff_of_nodup ((dataDisks_nodup _ _).filter _) hnd).2 fun d => ?_
    simpa using hskip d
  rw [← length_dataDisks hn st, List.length_eq_length_filter_add (l := dataDisks s.n st) skip.contains, hperm.length_eq,
    Nat.add_comm]
  rfl

theorem readCount_nil (hn : 3 ≤ s.n) : readCount [] (dataDisks s.n st) = s.n - 2 :=
  readCount_add_length (by omega) List.nodup_nil (by simp)

theorem readCount_one (hn : 3 ≤ s.n) (hd : d ∈ dataDisks s.n st) : readCount [d] (dataDisks s.n st) + 1 = s.n - 2 :=
  readCount_add_length (by omega) (List.nodup_singleton d) (by simpa using hd)

theorem readCount_two {e : Nat} (hn : 3 ≤ s.n) (hd : d ∈ dataDisks s.n st) (he : e ∈ dataDisks s.n st) (hne : d ≠ e) :
    readCount [d, e] (dataDisks s.n st) + 2 = s.n - 2 :=
  readCount_add_length (by omega) (by simpa using hne) (by simpa using ⟨hd, he⟩)

/-- A recovery case completes with the number of blocks written (R319). -/
theorem runsTo_recoveryDone {blocks m : Nat} (h : k = m) :
    (recoveryDone blocks).RunsTo s k (.next (recovered s (wordOf blocks) m)) := h ▸ fun _ => rfl

end Sys2Proof.Machine

/-! ## The recovery commands (R313 to R317, R319) -/

namespace Sys2Proof.Machine

open Sys2Proof.Spec

variable {s : State} {i : Instr} {p k : Prog} {st : Nat}

/-! ### What the checks of R310 leave -/

/-- What it is for a case that needs one block to pass every check of R310. -/
theorem recoveryError_one_eq_none (hi : recoveryNeed i = some 1) : recoveryError i s = none ↔
    3 ≤ s.n ∧ s.u 0 = 1 ∧ s.u 1 < s.n ∧ s.u 2 < s.nb ∧ roleError i s = none := by
  simp only [recoveryError, hi, Ne, Option.some_inj, OfNat.one_ne_ofNat, false_and, if_false]
  split_ifs <;> grind [Option.map_eq_none_iff]

/-- What it is for a case that needs two blocks. -/
theorem recoveryError_two_eq_none (hi : recoveryNeed i = some 2) : recoveryError i s = none ↔
    3 ≤ s.n ∧ s.u 0 = 2 ∧ s.u 1 < s.n ∧ s.u 3 < s.n ∧ s.u 4 = s.u 2 ∧ s.u 3 ≠ s.u 1 ∧ s.u 2 < s.nb ∧
      roleError i s = none := by
  simp only [recoveryError, hi, Ne, Option.some_inj, true_and]
  split_ifs <;> grind [Option.map_eq_none_iff]

theorem exec_recoveryOne (hs : s.Started) (hi : recoveryNeed i = some 1) (he : recoveryError i s = none)
    (hp : program i s = recoveryChecksOne s s.operandsRec p) (hk : p = .unlessError (roleFailure i s) k) :
    exec i s = k.run s := by
  rw [exec_started i hs, hp, hk, recoveryChecksOne_eq hi, he, Prog.unlessError_none]

theorem exec_recoveryTwo (hs : s.Started) (hi : recoveryNeed i = some 2) (he : recoveryError i s = none)
    (hp : program i s = recoveryChecksTwo s s.operandsRec p) (hk : p = .unlessError (roleFailure i s) k) :
    exec i s = k.run s := by
  rw [exec_started i hs, hp, hk, recoveryChecksTwo_eq hi, he, Prog.unlessError_none]

/-! ### The roles of the named blocks -/

theorem roleError_recSingleData : roleError .recSingleData s = none ↔ isParity s.n (s.u 1) (s.u 2) = false := by
  simp [roleError]

theorem roleError_recSingleParity : roleError .recSingleParity s = none ↔ isParity s.n (s.u 1) (s.u 2) = true := by
  simp [roleError]

theorem roleError_recDoubleData : roleError .recDoubleData s = none ↔
    isParity s.n (s.u 1) (s.u 2) = false ∧ isParity s.n (s.u 3) (s.u 2) = false := by
  simp only [roleError]
  split_ifs <;> simp_all

theorem roleError_recDoubleParity : roleError .recDoubleParity s = none ↔
    isParity s.n (s.u 1) (s.u 2) = true ∧ isParity s.n (s.u 3) (s.u 2) = true := by
  simp only [roleError]
  split_ifs <;> simp_all

theorem roleError_recDataAndParity : roleError .recDataAndParity s = none ↔
    isParity s.n (s.u 1) (s.u 2) ≠ isParity s.n (s.u 3) (s.u 2) := by
  simp [roleError]

/-! ### One block (R313, R314) -/

/-- Settles O30: the surviving data and P are read, and their XOR is written. -/
theorem recSingleDataResult : Obligations.RecSingleDataResult := by
  refine ⟨decode_encode .recSingleData, fun s hs he hc ha => ?_⟩
  obtain ⟨hn, -, hd, hst, hrole⟩ := (recoveryError_one_eq_none rfl).1 he
  have hserves : s.Serves (s.u 2) (s.n - 1) := ⟨hc, hst, ha⟩
  have hcount := readCount_one hn (mem_dataDisks.2 ⟨hd, roleError_recSingleData.1 hrole⟩)
  refine (exec_recoveryOne hs rfl he rfl whenRole_recSingleData).trans (Prog.RunsTo.run ?_)
  dsimp only [State.operandsRec]
  exact runsTo_readData hserves (by omega) <| runsTo_read hserves (parityDisk_lt (by omega) _ _) (by omega) <|
    runsTo_write hserves hd ((xorBlock_length_le _ _).trans (pParity_length_le _ _)) (by omega) <|
    runsTo_recoveryDone (by omega)

/-- Settles O31: the data is read, and its P or Q is written. -/
theorem recSingleParityResult : Obligations.RecSingleParityResult := by
  refine ⟨decode_encode .recSingleParity, fun s hs he hc ha => ?_⟩
  obtain ⟨hn, -, hd, hst, -⟩ := (recoveryError_one_eq_none rfl).1 he
  have hserves : s.Serves (s.u 2) (s.n - 1) := ⟨hc, hst, ha⟩
  have hcount := readCount_nil (st := s.u 2) hn
  have hrun {x : Block} (hx : x.length ≤ s.bs)
      (hif : (if s.u 1 = pDisk s (s.u 2) then pParity s.bs (s.stripeData (s.u 2))
        else qParity s.bs (s.stripeData (s.u 2))) = x) :
      exec .recSingleParity s = .next { recovered s 1#32 (s.n - 1) with disk := s.diskWith (s.u 1) (s.u 2) 0 x } := by
    subst hif
    refine (exec_recoveryOne hs rfl he rfl whenRole_recSingleParity).trans (Prog.RunsTo.run ?_)
    dsimp only [State.operandsRec]
    exact runsTo_readData hserves (by omega) <| runsTo_write hserves hd hx (by omega) <|
      runsTo_recoveryDone (by omega)
  refine ⟨fun hP => hrun (pParity_length_le _ _) (if_pos hP), fun hQ => hrun (qParity_length_le _ _) (if_neg ?_)⟩
  exact hQ ▸ (parityDisk_ne (by omega) _).symm

/-! ### Two blocks (R315 to R317) -/

/-- Settles O33: the data is read, and its P and Q are written. -/
theorem recDoubleParityResult : Obligations.RecDoubleParityResult := by
  refine ⟨decode_encode .recDoubleParity, fun s hs he hc ha => ?_⟩
  obtain ⟨hn, -, -, -, -, -, hst, -⟩ := (recoveryError_two_eq_none rfl).1 he
  have hserves : s.Serves (s.u 2) s.n := ⟨hc, hst, ha⟩
  have hcount := readCount_nil (st := s.u 2) hn
  have hpar (p : Nat) : parityDisk s.n (s.u 2) p < s.n := parityDisk_lt (by omega) _ _
  refine (exec_recoveryTwo hs rfl he rfl whenRole_recDoubleParity).trans (Prog.RunsTo.run ?_)
  dsimp only [State.operandsRec]
  exact runsTo_readData hserves (by omega) <| runsTo_write hserves (hpar 0) (pParity_length_le _ _) (by omega) <|
    runsTo_write (hserves.stored _ _) (hpar 1) (qParity_length_le _ _) (by omega) <|
    runsTo_recoveryDone (by omega)

theorem length_of_mem_survivors {skip : List Nat} : ∀ x ∈ s.survivors st skip, x.length = s.bs := by
  intro x hx
  obtain ⟨d, -, rfl⟩ := List.mem_map.1 hx
  split
  · exact List.length_replicate
  · exact State.diskBytes_length _ _ _ _ _

/-- Two data disks of at most 257 have ordinals that differ modulo 255 (R207). -/
theorem dataDisks_emod_ne {n d e x y : Nat} (hn : 2 ≤ n) (hmax : n ≤ maxDisks) (hx : (dataDisks n st)[x]? = some d)
    (hy : (dataDisks n st)[y]? = some e) (hne : d ≠ e) : (x : Int) % 255 ≠ (y : Int) % 255 := by
  have hxy : x ≠ y := fun heq => hne (Option.some.inj (hx.symm.trans (heq ▸ hy)))
  have hlx := (List.getElem?_eq_some_iff.1 hx).1
  have hly := (List.getElem?_eq_some_iff.1 hy).1
  rw [length_dataDisks hn] at hlx hly
  simp only [maxDisks] at hmax
  omega

/-- The surviving data, P and Q are read, and the two blocks solved with the coefficients (A, B) are written (R315). -/
theorem exec_recDoubleData {ab : Byte × Byte} {pd qd : Block} (hs : s.Started)
    (he : recoveryError .recDoubleData s = none) (hc : s.StoreCovers) (ha : s.AnswersOk s.n)
    (hab : ddCoeffs (ordinal s.n (s.u 1) (s.u 2)) (ordinal s.n (s.u 3) (s.u 2)) = some ab)
    (hpd : xorBlock (s.diskBytes (pDisk s (s.u 2)) (s.u 2) 0 s.bs)
      (pParity s.bs (s.survivors (s.u 2) [s.u 1, s.u 3])) = pd)
    (hqd : xorBlock (s.diskBytes (qDisk s (s.u 2)) (s.u 2) 0 s.bs)
      (qParity s.bs (s.survivors (s.u 2) [s.u 1, s.u 3])) = qd) :
    exec .recDoubleData s = .next
      { recovered s 2#32 s.n with
        disk := ((s.stored (s.u 1) (s.u 2) 0 (solveBlocks ab pd qd).1).stored (s.u 3) (s.u 2) 0
          (solveBlocks ab pd qd).2).disk } := by
  subst hpd hqd
  obtain ⟨hn, -, h0, h1, -, hne, hst, hrole⟩ := (recoveryError_two_eq_none rfl).1 he
  obtain ⟨hr0, hr1⟩ := roleError_recDoubleData.1 hrole
  have hserves : s.Serves (s.u 2) s.n := ⟨hc, hst, ha⟩
  have hcount := readCount_two hn (mem_dataDisks.2 ⟨h0, hr0⟩) (mem_dataDisks.2 ⟨h1, hr1⟩) hne.symm
  have hpar (p : Nat) : parityDisk s.n (s.u 2) p < s.n := parityDisk_lt (by omega) _ _
  have hlen (x : Block) : (xorBlock x (pParity s.bs (s.survivors (s.u 2) [s.u 1, s.u 3]))).length ≤ s.bs :=
    (xorBlock_length_le _ _).trans (pParity_length_le _ _)
  refine (exec_recoveryTwo hs rfl he rfl whenRole_recDoubleData).trans (Prog.RunsTo.run ?_)
  dsimp only [State.operandsRec]
  refine runsTo_readData hserves (by omega) <| runsTo_read hserves (hpar 0) (by omega) <|
    runsTo_read hserves (hpar 1) (by omega) ?_
  simp only [hab]
  exact runsTo_write hserves h0 ((solveBlocks_fst_length_le _ _ _).trans (hlen _)) (by omega) <|
    runsTo_write (hserves.stored _ _) h1 ((solveBlocks_snd_length_le _ _ _).trans (hlen _)) (by omega) <|
    runsTo_recoveryDone (by omega)

/-- Settles O32: the surviving data, P and Q are read, and the 2x2 system is solved at every byte. -/
theorem recDoubleDataResult : Obligations.RecDoubleDataResult := by
  refine ⟨decode_encode .recDoubleData, fun s hcfg hs he hc ha => ?_⟩
  obtain ⟨hn, -, h0, h1, -, hne, -, hrole⟩ := (recoveryError_two_eq_none rfl).1 he
  obtain ⟨hr0, hr1⟩ := roleError_recDoubleData.1 hrole
  have hmax : s.n ≤ maxDisks := by omega
  have hx := dataDisks_ordinal (by omega) h0 hr0
  have hy := dataDisks_ordinal (by omega) h1 hr1
  obtain ⟨a, b, hab, -, -⟩ := ddCoeffs_spec (dataDisks_emod_ne (by omega) hmax hx hy hne.symm)
  have hsurvivors := length_of_mem_survivors (s := s) (st := s.u 2) (skip := [s.u 1, s.u 3])
  have hpd := xorBlock_length (s.diskBytes_length (pDisk s (s.u 2)) (s.u 2) 0 s.bs) (pParity_length hsurvivors)
  have hqd := xorBlock_length (s.diskBytes_length (qDisk s (s.u 2)) (s.u 2) 0 s.bs) (qParity_length hsurvivors)
  obtain ⟨hbx, hby⟩ := solveBlocks_length (a, b) hpd hqd
  exact ⟨_, _, _, _, hx, hy, hbx, hby, solveBlocks_bytes hab hpd hqd, exec_recDoubleData hs he hc ha hab rfl rfl⟩

/-- Settles O34: the surviving data and the parity left are read, and the data block and the lost parity are written. -/
theorem recDataAndParityResult : Obligations.RecDataAndParityResult := by
  refine ⟨decode_encode .recDataAndParity, fun s hs he hc ha dd pp hroles => ?_⟩
  obtain ⟨hn, -, h0, h1, -, -, hst, hrole⟩ := (recoveryError_two_eq_none rfl).1 he
  have hserves : s.Serves (s.u 2) s.n := ⟨hc, hst, ha⟩
  rw [roleError_recDataAndParity] at hrole
  have hdd : (if isParity s.n s.operandsRec.d0 s.operandsRec.s0 then s.operandsRec.d1 else s.operandsRec.d0) = dd := by
    rcases hroles with ⟨hpar, rfl, rfl⟩ | ⟨hpar, rfl, rfl⟩ <;> simp [State.operandsRec, hpar]
  have hpp : (if isParity s.n s.operandsRec.d0 s.operandsRec.s0 then s.operandsRec.d0 else s.operandsRec.d1) = pp := by
    rcases hroles with ⟨hpar, rfl, rfl⟩ | ⟨hpar, rfl, rfl⟩ <;> simp [State.operandsRec, hpar]
  obtain ⟨hddn, hppn, hdata⟩ : dd < s.n ∧ pp < s.n ∧ isParity s.n dd (s.u 2) = false := by
    rcases hroles with ⟨hpar, rfl, rfl⟩ | ⟨hpar, rfl, rfl⟩ <;> simp_all
  have hcount := readCount_one hn (mem_dataDisks.2 ⟨hddn, hdata⟩)
  have hpar (p : Nat) : parityDisk s.n (s.u 2) p < s.n := parityDisk_lt (by omega) _ _
  refine ⟨_, dataDisks_ordinal (by omega) hddn hdata, fun hQ => ?_, fun hP => ?_⟩
  all_goals
    refine (exec_recoveryTwo hs rfl he rfl whenRole_recDataAndParity).trans (Prog.RunsTo.run ?_)
    dsimp only
    rw [hdd, hpp]
    dsimp only [State.operandsRec]
    refine runsTo_readData hserves (by omega) ?_
  · exact runsTo_if_pos hQ <| runsTo_read hserves (hpar 0) (by omega) <|
      runsTo_write hserves hddn ((xorBlock_length_le _ _).trans (pParity_length_le _ _)) (by omega) <|
      runsTo_write (hserves.stored _ _) hppn (qParity_length_le _ _) (by omega) <|
      runsTo_recoveryDone (by omega)
  · exact runsTo_if_neg (hP ▸ parityDisk_ne (by omega) _) <| runsTo_read hserves (hpar 1) (by omega) <|
      runsTo_write hserves hddn
        ((scaleBlock_length _ _).trans_le ((xorBlock_length_le _ _).trans (qParity_length_le _ _))) (by omega) <|
      runsTo_write (hserves.stored _ _) hppn (pParity_length_le _ _) (by omega) <|
      runsTo_recoveryDone (by omega)

end Sys2Proof.Machine

/-! ## The scrub (R340) -/

namespace Sys2Proof.Machine

open Sys2Proof.Spec

variable {s : State} {f left N : Nat} {o : Host.Outcome State Fault Refusal}

/-- One stripe of the loop: its n blocks are read and compared (R340). -/
theorem runsTo_checkFrom_succ (hn : 3 ≤ s.n) (h : s.Serves f N) (hN : (f + 1) * s.n ≤ N)
    (hnext : (if s.diskBytes (pDisk s f) f 0 s.bs ≠ pParity s.bs (s.stripeData f) ∨
        s.diskBytes (qDisk s f) f 0 s.bs ≠ qParity s.bs (s.stripeData f) then
          Prog.done { res := [(0, 1#32), (1, wordOf f)] }
        else checkFrom s.n s.bs left (f + 1)).RunsTo s ((f + 1) * s.n) o) :
    (checkFrom s.n s.bs (left + 1) f).RunsTo s (f * s.n) o := by
  have hcount := readCount_nil (st := f) hn
  have hused : (f + 1) * s.n = f * s.n + readCount [] (dataDisks s.n f) + 1 + 1 := by
    rw [Nat.succ_mul]
    omega
  have hpar (p : Nat) : parityDisk s.n f p < s.n := parityDisk_lt (by omega) _ _
  rw [hused] at hnext hN
  exact runsTo_readData h (by omega) <| runsTo_read h (hpar 0) (by omega) <| runsTo_read h (hpar 1) (by omega) hnext

/-- The loop reaches stripe `f` where every stripe before it satisfies (P) and (Q). -/
theorem runsTo_checkFrom_zero (hn : 3 ≤ s.n) (hc : s.StoreCovers) (ha : s.AnswersOk N) (hN : f * s.n ≤ N)
    (hok : ∀ st < f, s.InvariantP st ∧ s.InvariantQ st) (hleft : f + left = s.nb)
    (h : (checkFrom s.n s.bs left f).RunsTo s (f * s.n) o) : (checkFrom s.n s.bs s.nb 0).RunsTo s 0 o := by
  induction f generalizing left with
  | zero =>
    rw [Nat.zero_mul] at h
    rwa [← hleft, Nat.zero_add]
  | succ f ih =>
    have hmono : f * s.n ≤ (f + 1) * s.n := Nat.mul_le_mul_right _ (Nat.le_succ f)
    refine ih (left := left + 1) (hmono.trans hN) (fun st hst => hok st (by omega)) (by omega) ?_
    refine runsTo_checkFrom_succ hn ⟨hc, by omega, ha⟩ hN ?_
    obtain ⟨hP, hQ⟩ := hok f (Nat.lt_succ_self f)
    exact runsTo_if_neg (not_or.2 ⟨not_not.2 hP, not_not.2 hQ⟩) h

theorem exec_check (hs : s.Started) (hn : 3 ≤ s.n) (h : (checkFrom s.n s.bs s.nb 0).RunsTo s 0 o) :
    exec .check s = o := by
  rw [exec_started _ hs, program, checkProgram, whenConfigured_pass hn]
  exact h.run

/-- Settles O36: the loop passes the consistent stripes and ends at the first that is not, or past the last. -/
theorem checkFindsFirstBadStripe : Obligations.CheckFindsFirstBadStripe := by
  refine ⟨decode_encode .check, fun s hs => ⟨fun hn => exec_of_raise hs (whenConfigured_fail hn),
    fun hn hc hcons ha => ?_, fun hn hc f hf hok hbad ha => ?_⟩⟩
  · exact exec_check hs hn (runsTo_checkFrom_zero (left := 0) hn hc ha le_rfl hcons rfl fun _ => rfl)
  · obtain ⟨left, hleft⟩ : ∃ left, f + (left + 1) = s.nb := ⟨s.nb - f - 1, by omega⟩
    have hmono : f * s.n ≤ (f + 1) * s.n := Nat.mul_le_mul_right _ (Nat.le_succ f)
    refine exec_check hs hn (runsTo_checkFrom_zero hn hc ha hmono hok hleft ?_)
    refine runsTo_checkFrom_succ hn ⟨hc, hf, ha⟩ le_rfl ?_
    exact runsTo_if_pos (not_and_or.1 hbad) fun _ => rfl

end Sys2Proof.Machine

/-! ## Exact recovery (R318) -/

namespace Sys2Proof.Machine

open Sys2Proof.Spec

variable {s t u v : State} {i : Instr} {p : Prog} {r : Request} {st d j k : Nat} {bytes : Block}

/-! ### A run that succeeds -/

/-- What a served request does is a function of the disk (R106, R107). -/
theorem serve_congr (h : v.disk = s.disk) (r : Request) :
    (v.serve r).1.disk = (s.serve r).1.disk ∧ (v.serve r).2 = (s.serve r).2 := by
  cases r with
  | read => exact ⟨h, by simp only [State.serve, State.diskBytes, State.diskByte, h]⟩
  | write => exact ⟨by simp only [State.serve, State.diskWith, h], rfl⟩

/-- A response of OK means that the request was served, whatever the input was. -/
theorem serve_of_receive_ok (h : s.receive r = (u, some (.ok bytes))) :
    u.disk = (s.serve r).1.disk ∧ bytes = (s.serve r).2 := by
  obtain ⟨hdisk, hbytes⟩ := serve_congr s.takeAnswer_disk r
  rw [State.receive] at h
  rcases s.takeAnswer.2.respond_cases r s.takeAnswer.1 with he | ⟨kind, -, he⟩ | he <;> rw [he] at h <;> cases h
  exact ⟨hdisk, hbytes⟩

/-- A request answered with OK hands on what serving it gives. -/
theorem run_ask_ok {k : Block → Prog} {rest : List Answer} (ha : v.answers = .ok :: rest) (hg : v.inGeometry r = true) :
    (Prog.ask r k).run v = (k (v.serve r).2).run (v.answered r rest) := by
  simp only [Prog.run, v.receive_ok r rest ha hg, State.answered]

theorem answered_geometry (v : State) (r : Request) (rest : List Answer) :
    (v.answered r rest).geometry = v.geometry := by
  cases r <;> rfl

/-- A run that ends in a successful completion changes the disk as a run with OK answers does (R75). -/
theorem run_disk_of_success (h : p.run s = .next t) (hidle : t.seq = .idle) (herr : t.err = false) :
    ∃ N, ∀ v : State, v.disk = s.disk → v.geometry = none → v.AnswersOk N →
      ∃ w, p.run v = .next w ∧ w.disk = t.disk := by
  induction p generalizing s with
  | done e =>
    cases h
    exact ⟨0, fun v hd _ _ => ⟨_, rfl, hd⟩⟩
  | raise kind d b =>
    cases h
    cases herr
  | stop f => cases h
  | ask r k ih =>
    rw [Prog.run] at h
    split at h
    case h_1 u bytes hu =>
      obtain ⟨hdisk, rfl⟩ := serve_of_receive_ok hu
      obtain ⟨N, hN⟩ := ih _ h
      refine ⟨N + 1, fun v hd hg ha => ?_⟩
      obtain ⟨hvdisk, hvbytes⟩ := serve_congr hd r
      have hin : v.inGeometry r = true := by rw [State.inGeometry, hg]
      rw [run_ask_ok ha.head hin, hvbytes]
      exact hN _ (hvdisk.trans hdisk.symm) ((answered_geometry v r _).trans hg) ha.tail
    case h_2 u kind hu =>
      cases h
      cases herr
    case h_3 u hu =>
      have hseq := s.receive_seq r
      cases h
      rw [hu, hidle] at hseq
      cases hseq

/-! ### The blocks of a stripe (R311, R366) -/

variable {m : List Host.Cell} {lost skip : List Nat}

/-- `s` with the disk `m`. -/
def State.withDisk (s : State) (m : List Host.Cell) : State := { s with disk := m }

/-- Outside `lost` the blocks of the stripe are those of the disk `m`. -/
def State.AgreesBut (s : State) (m : List Host.Cell) (st : Nat) (lost : List Nat) : Prop :=
  ∀ d < s.n, d ∉ lost → s.diskBytes d st 0 s.bs = (s.withDisk m).diskBytes d st 0 s.bs

theorem State.AgreesBut.mono {lost' : List Nat} (h : s.AgreesBut m st lost) (hsub : ∀ d ∈ lost, d ∈ lost') :
    s.AgreesBut m st lost' := fun d hd hnot => h d hd fun hl => hnot (hsub d hl)

/-- A block restored is a block less to lose. -/
theorem State.AgreesBut.stored (h : s.AgreesBut m st (d :: lost)) (hst : st < s.nb) {x : Block}
    (hx : x = (s.withDisk m).diskBytes d st 0 s.bs) : (s.stored d st 0 x).AgreesBut m st lost := by
  subst hx
  intro e he hnot
  have hst' : st < 2 ^ 32 := hst.trans s.cfgNblocks.isLt
  have hbs : 0 + s.bs ≤ 2 ^ 32 := (Nat.zero_add _).trans_le s.cfgBsize.isLt.le
  by_cases hed : e = d
  · subst hed
    have hback := s.diskBytes_stored e st 0 ((s.withDisk m).diskBytes e st 0 s.bs)
    rwa [State.diskBytes_length] at hback
  · have hlen := State.diskBytes_length (s.withDisk m) d st 0 s.bs
    exact (s.diskBytes_stored_other d st 0 _ e st 0 s.bs hst' (hlen.symm ▸ hbs) hst' hbs fun hand => hed hand.1).trans
      (h e he (List.not_mem_cons_of_ne_of_not_mem hed hnot))

/-- One disk more to skip is one slot more to be zero. -/
theorem survivors_cons (hk : (dataDisks s.n st)[k]? = some d) :
    s.survivors st (d :: skip) = (s.survivors st skip).set k (zeroBlock s.bs) := by
  obtain ⟨hlt, rfl⟩ := List.getElem?_eq_some_iff.1 hk
  refine List.ext_getElem (by simp [State.survivors]) fun j hj _ => ?_
  have hjl : j < (dataDisks s.n st).length := by simpa [State.survivors] using hj
  have hinj : (dataDisks s.n st)[j] = (dataDisks s.n st)[k] ↔ k = j := by
    rw [(dataDisks_nodup _ _).getElem_inj_iff, eq_comm]
  simp only [State.survivors, List.getElem_map, List.getElem_set, List.contains_cons, Bool.or_eq_true, beq_iff_eq, hinj]
  split_ifs <;> simp_all

theorem stripeData_getElem? (hk : (dataDisks s.n st)[k]? = some d) :
    (s.stripeData st)[k]? = some (s.diskBytes d st 0 s.bs) := by
  rw [State.stripeData, List.getElem?_map, hk, Option.map_some]

/-- The survivors are those of `m` where every lost data disk is skipped. -/
theorem State.AgreesBut.survivors (h : s.AgreesBut m st lost)
    (hskip : ∀ d ∈ lost, isParity s.n d st = false → d ∈ skip) :
    s.survivors st skip = (s.withDisk m).survivors st skip := by
  refine List.map_congr_left fun d hd => ?_
  obtain ⟨hdn, hdata⟩ := mem_dataDisks.1 hd
  by_cases hs : d ∈ skip
  · rw [if_pos (by simpa using hs), if_pos (by simpa using hs)]
    rfl
  · rw [if_neg (by simpa using hs), if_neg (by simpa using hs)]
    exact h d hdn fun hl => hs (hskip d hl hdata)

/-- With the lost data block put back, the survivors are the data blocks of `m`. -/
theorem State.AgreesBut.survivors_set (h : s.AgreesBut m st lost)
    (hlost : ∀ e ∈ lost, isParity s.n e st = false → e ∈ [d]) (hk : (dataDisks s.n st)[k]? = some d) :
    (s.survivors st [d]).set k ((s.withDisk m).diskBytes d st 0 s.bs) = (s.withDisk m).stripeData st := by
  obtain ⟨hlt, hget⟩ := List.getElem?_eq_some_iff.1 (stripeData_getElem? (s := s.withDisk m) hk)
  rw [h.survivors hlost, survivors_cons (s := s.withDisk m) hk, List.set_set]
  exact hget ▸ List.set_getElem_self hlt

/-! ### The roles of disks -/

theorem ne_of_roles {e : Nat} (h : isParity s.n d st = false) (h' : isParity s.n e st = true) : d ≠ e := by
  rintro rfl
  rw [h] at h'
  cases h'

theorem pDisk_lt (hn : 3 ≤ s.n) (st : Nat) : pDisk s st < s.n := parityDisk_lt (by omega) st 0

theorem qDisk_lt (hn : 3 ≤ s.n) (st : Nat) : qDisk s st < s.n := parityDisk_lt (by omega) st 1

theorem pDisk_ne_qDisk (hn : 3 ≤ s.n) (st : Nat) : pDisk s st ≠ qDisk s st := parityDisk_ne (by omega) st

theorem isParity_iff_disk : isParity s.n d st = true ↔ d = pDisk s st ∨ d = qDisk s st := isParity_iff

theorem isParity_pDisk (s : State) (st : Nat) : isParity s.n (pDisk s st) st = true := isParity_iff.2 (.inl rfl)

theorem isParity_qDisk (s : State) (st : Nat) : isParity s.n (qDisk s st) st = true := isParity_iff.2 (.inr rfl)

/-! ### The lost data block (R312) -/

theorem length_of_mem_stripeData : ∀ x ∈ s.stripeData st, x.length = s.bs :=
  length_of_mem_survivors (skip := [])

/-- The XOR branch: P and its syndrome give the data block. -/
theorem State.AgreesBut.xor_pSyndrome (h : s.AgreesBut m st lost) (hn : 3 ≤ s.n) (hp : pDisk s st ∉ lost)
    (hlost : ∀ e ∈ lost, isParity s.n e st = false → e ∈ [d]) (hk : (dataDisks s.n st)[k]? = some d)
    (hP : (s.withDisk m).InvariantP st) :
    xorBlock (s.diskBytes (pDisk s st) st 0 s.bs) (pParity s.bs (s.survivors st [d])) =
      (s.withDisk m).diskBytes d st 0 s.bs := by
  rw [h _ (pDisk_lt hn st) hp, h.survivors hlost, survivors_cons (s := s.withDisk m) hk]
  exact (congrArg (xorBlock · _) hP).trans
    (pParity_xor_set_zero (stripeData_getElem? (s := s.withDisk m) hk) length_of_mem_stripeData)

/-- The RS branch: Q and its syndrome give the data block times its coefficient. -/
theorem State.AgreesBut.xor_qSyndrome (h : s.AgreesBut m st lost) (hn : 3 ≤ s.n) (hq : qDisk s st ∉ lost)
    (hlost : ∀ e ∈ lost, isParity s.n e st = false → e ∈ [d]) (hk : (dataDisks s.n st)[k]? = some d)
    (hQ : (s.withDisk m).InvariantQ st) :
    xorBlock (s.diskBytes (qDisk s st) st 0 s.bs) (qParity s.bs (s.survivors st [d])) =
      scaleBlock ((s.withDisk m).diskBytes d st 0 s.bs) (gfPow (k : Nat)) := by
  rw [h _ (qDisk_lt hn st) hq, h.survivors hlost, survivors_cons (s := s.withDisk m) hk]
  exact (congrArg (xorBlock · _) hQ).trans
    (qParity_xor_set_zero (stripeData_getElem? (s := s.withDisk m) hk) length_of_mem_stripeData)

/-- With two data blocks lost, P and its syndrome give their XOR, Q and its syndrome the XOR of their multiples. -/
theorem State.AgreesBut.xor_syndromes {e : Nat} (h : s.AgreesBut m st [d, e]) (hn : 3 ≤ s.n)
    (hd : isParity s.n d st = false) (he : isParity s.n e st = false) (hj : (dataDisks s.n st)[j]? = some d)
    (hk : (dataDisks s.n st)[k]? = some e) (hne : d ≠ e) (hP : (s.withDisk m).InvariantP st)
    (hQ : (s.withDisk m).InvariantQ st) :
    xorBlock (s.diskBytes (pDisk s st) st 0 s.bs) (pParity s.bs (s.survivors st [d, e])) =
        xorBlock ((s.withDisk m).diskBytes d st 0 s.bs) ((s.withDisk m).diskBytes e st 0 s.bs) ∧
      xorBlock (s.diskBytes (qDisk s st) st 0 s.bs) (qParity s.bs (s.survivors st [d, e])) =
        xorBlock (scaleBlock ((s.withDisk m).diskBytes d st 0 s.bs) (gfPow (j : Nat)))
          (scaleBlock ((s.withDisk m).diskBytes e st 0 s.bs) (gfPow (k : Nat))) := by
  have hkj : k ≠ j := fun heq => hne (Option.some.inj (hj.symm.trans (heq ▸ hk)))
  have hkept {c : Nat} (hc : isParity s.n c st = true) : c ∉ [d, e] := by
    simpa using ⟨(ne_of_roles hd hc).symm, (ne_of_roles he hc).symm⟩
  have hdj := stripeData_getElem? (s := s.withDisk m) hj
  have hek := stripeData_getElem? (s := s.withDisk m) hk
  rw [h _ (pDisk_lt hn st) (hkept (isParity_pDisk s st)), h _ (qDisk_lt hn st) (hkept (isParity_qDisk s st)),
    h.survivors fun _ hl _ => hl, survivors_cons (s := s.withDisk m) hj, survivors_cons (s := s.withDisk m) hk]
  exact ⟨(congrArg (xorBlock · _) hP).trans (pParity_xor_set_zero_two hdj hek hkj length_of_mem_stripeData),
    (congrArg (xorBlock · _) hQ).trans (qParity_xor_set_zero_two hdj hek hkj length_of_mem_stripeData)⟩

/-! ### Each case restores what it names (R318(b)) -/

/-- A recovery case that passes its checks and is served. -/
structure State.Recovers (s : State) (i : Instr) : Prop where
  started : s.Started
  checks : recoveryError i s = none
  covers : s.StoreCovers
  answers : s.AnswersOk s.n

/-- The command completes with every block of the stripe as in `m`. -/
def State.Restores (s : State) (m : List Host.Cell) (i : Instr) : Prop :=
  ∃ w, exec i s = .next w ∧ (s.withDisk w.disk).AgreesBut m (s.u 2) []

theorem restores_recSingleData (h : s.Recovers .recSingleData) (ha : s.AgreesBut m (s.u 2) [s.u 1])
    (hP : (s.withDisk m).InvariantP (s.u 2)) : s.Restores m .recSingleData := by
  obtain ⟨hn, -, hd, hst, hrole⟩ := (recoveryError_one_eq_none rfl).1 h.checks
  rw [roleError_recSingleData] at hrole
  have hk := dataDisks_ordinal (by omega) hd hrole
  have hp : pDisk s (s.u 2) ∉ [s.u 1] := by simpa using (ne_of_roles hrole (isParity_pDisk s _)).symm
  exact ⟨_, recSingleDataResult.2 s h.started h.checks h.covers (h.answers.mono (Nat.sub_le _ _)),
    ha.stored hst (ha.xor_pSyndrome hn hp (fun _ he _ => he) hk hP)⟩

/-- Where only parity disks are lost the data blocks are those of `m`. -/
theorem State.AgreesBut.stripeData (h : s.AgreesBut m st lost) (hlost : ∀ d ∈ lost, isParity s.n d st = true) :
    s.stripeData st = (s.withDisk m).stripeData st :=
  h.survivors (skip := []) fun d hd hdata => absurd rfl (ne_of_roles hdata (hlost d hd))

theorem restores_recSingleParity (h : s.Recovers .recSingleParity) (ha : s.AgreesBut m (s.u 2) [s.u 1])
    (hP : (s.withDisk m).InvariantP (s.u 2)) (hQ : (s.withDisk m).InvariantQ (s.u 2)) :
    s.Restores m .recSingleParity := by
  obtain ⟨-, -, -, hst, hrole⟩ := (recoveryError_one_eq_none rfl).1 h.checks
  rw [roleError_recSingleParity] at hrole
  have hdata := ha.stripeData (by simpa using hrole)
  obtain ⟨hresP, hresQ⟩ :=
    recSingleParityResult.2 s h.started h.checks h.covers (h.answers.mono (Nat.sub_le _ _))
  rcases isParity_iff.1 hrole with hd | hd
  · refine ⟨_, hresP hd, ha.stored hst ?_⟩
    rw [hdata, hd]
    exact hP.symm
  · refine ⟨_, hresQ hd, ha.stored hst ?_⟩
    rw [hdata, hd]
    exact hQ.symm

theorem restores_recDoubleParity (h : s.Recovers .recDoubleParity) (ha : s.AgreesBut m (s.u 2) [s.u 1, s.u 3])
    (hP : (s.withDisk m).InvariantP (s.u 2)) (hQ : (s.withDisk m).InvariantQ (s.u 2)) :
    s.Restores m .recDoubleParity := by
  obtain ⟨-, -, -, -, -, -, hst, hrole⟩ := (recoveryError_two_eq_none rfl).1 h.checks
  rw [roleError_recDoubleParity, isParity_iff_disk, isParity_iff_disk] at hrole
  have ha' : s.AgreesBut m (s.u 2) [pDisk s (s.u 2), qDisk s (s.u 2)] :=
    ha.mono (by simpa using hrole)
  have hdata := ha'.stripeData (by simpa using ⟨isParity_pDisk s _, isParity_qDisk s _⟩)
  refine ⟨_, recDoubleParityResult.2 s h.started h.checks h.covers h.answers,
    (ha'.stored hst ?_).stored hst ?_⟩
  · rw [hdata]
    exact hP.symm
  · rw [hdata]
    exact hQ.symm

theorem restores_recDoubleData (h : s.Recovers .recDoubleData) (hcfg : s.CfgLegal)
    (ha : s.AgreesBut m (s.u 2) [s.u 1, s.u 3]) (hP : (s.withDisk m).InvariantP (s.u 2))
    (hQ : (s.withDisk m).InvariantQ (s.u 2)) : s.Restores m .recDoubleData := by
  obtain ⟨hn, -, h0, h1, -, hne, hst, hrole⟩ := (recoveryError_two_eq_none rfl).1 h.checks
  obtain ⟨hr0, hr1⟩ := roleError_recDoubleData.1 hrole
  obtain ⟨x, y, bx, by_, hx, hy, hbx, hby, hbytes, hexec⟩ :=
    recDoubleDataResult.2 s hcfg h.started h.checks h.covers h.answers
  have hmax : s.n ≤ maxDisks := by omega
  have hmod := dataDisks_emod_ne (by omega) hmax hx hy hne.symm
  obtain ⟨hpd, hqd⟩ := ha.xor_syndromes hn hr0 hr1 hx hy hne.symm hP hQ
  rw [hpd, hqd] at hbytes
  obtain ⟨rfl, rfl⟩ := eq_of_solve2 hmod (State.diskBytes_length _ _ _ _ _) (State.diskBytes_length _ _ _ _ _) hbx
    hby hbytes
  exact ⟨_, hexec, (ha.stored hst rfl).stored hst rfl⟩

theorem restores_recDataAndParity (h : s.Recovers .recDataAndParity)
    (ha : s.AgreesBut m (s.u 2) [s.u 1, s.u 3]) (hP : (s.withDisk m).InvariantP (s.u 2))
    (hQ : (s.withDisk m).InvariantQ (s.u 2)) : s.Restores m .recDataAndParity := by
  obtain ⟨hn, -, -, -, -, -, hst, hrole⟩ := (recoveryError_two_eq_none rfl).1 h.checks
  rw [roleError_recDataAndParity] at hrole
  obtain ⟨dd, pp, hroles, hdata, hpar, ha'⟩ : ∃ dd pp,
      ((isParity s.n (s.u 1) (s.u 2) = true ∧ dd = s.u 3 ∧ pp = s.u 1) ∨
        (isParity s.n (s.u 1) (s.u 2) = false ∧ dd = s.u 1 ∧ pp = s.u 3)) ∧
      isParity s.n dd (s.u 2) = false ∧ isParity s.n pp (s.u 2) = true ∧ s.AgreesBut m (s.u 2) [dd, pp] := by
    cases hfirst : isParity s.n (s.u 1) (s.u 2) with
    | true => exact ⟨_, _, .inl ⟨rfl, rfl, rfl⟩, by simpa [hfirst] using hrole, hfirst, ha.mono (by simp)⟩
    | false => exact ⟨_, _, .inr ⟨rfl, rfl, rfl⟩, hfirst, by simpa [hfirst] using hrole, ha⟩
  obtain ⟨k, hk, hresQ, hresP⟩ := recDataAndParityResult.2 s h.started h.checks h.covers h.answers dd pp hroles
  have hlost : ∀ e ∈ [dd, pp], isParity s.n e (s.u 2) = false → e ∈ [dd] := by simp [hpar]
  have hkept {c : Nat} (hc : isParity s.n c (s.u 2) = true) (hcp : c ≠ pp) : c ∉ [dd, pp] := by
    simpa using ⟨(ne_of_roles hdata hc).symm, hcp⟩
  rcases isParity_iff_disk.1 hpar with hpp | hpp
  · have hr := ha'.xor_qSyndrome hn (hkept (isParity_qDisk s _) (hpp ▸ (pDisk_ne_qDisk hn _).symm)) hlost hk hQ
    refine ⟨_, hresP hpp, (ha'.stored hst ?_).stored hst ?_⟩
    · rw [hr, scaleBlock_scaleBlock_neg]
    · rw [hr, scaleBlock_scaleBlock_neg, ha'.survivors_set hlost hk, hpp]
      exact hP.symm
  · have hr := ha'.xor_pSyndrome hn (hkept (isParity_pDisk s _) (hpp ▸ pDisk_ne_qDisk hn _)) hlost hk hP
    refine ⟨_, hresQ hpp, (ha'.stored hst hr).stored hst ?_⟩
    rw [hr, ha'.survivors_set hlost hk, hpp]
    exact hQ.symm

/-! ### The restoration (R318(b)) -/

/-- A command that succeeds has passed its checks (R310). -/
theorem recoveryError_of_success (hi : recoveryNeed i ≠ none) (hs : s.Started) (h : exec i s = .next t)
    (herr : t.err = false) : recoveryError i s = none := by
  rw [Option.eq_none_iff_forall_ne_some]
  rintro ⟨kind, d, b⟩ he
  rw [recoveryErrors i s hi hs kind d b he] at h
  cases h
  cases herr

/-- With a store that answers OK every recovery case restores the blocks it names. -/
theorem State.Recovers.restores (hi : recoveryNeed i ≠ none) (h : s.Recovers i) (hcfg : s.CfgLegal)
    (ha : s.AgreesBut m (s.u 2) (lostDisks i s)) (hP : (s.withDisk m).InvariantP (s.u 2))
    (hQ : i = .recSingleData ∨ (s.withDisk m).InvariantQ (s.u 2)) : s.Restores m i := by
  have hQ' (hne : i ≠ .recSingleData) := hQ.resolve_left hne
  cases i with
  | recSingleData => exact restores_recSingleData h ha hP
  | recSingleParity => exact restores_recSingleParity h ha hP (hQ' nofun)
  | recDoubleData => exact restores_recDoubleData h hcfg ha hP (hQ' nofun)
  | recDoubleParity => exact restores_recDoubleParity h ha hP (hQ' nofun)
  | recDataAndParity => exact restores_recDataAndParity h ha hP (hQ' nofun)
  | _ => exact absurd rfl hi

/-- `s` with a store that answers the next `k` requests with OK. -/
def State.obliging (s : State) (k : Nat) : State :=
  { s with geometry := none, answers := List.replicate k .ok }

theorem obliging_answersOk {k N : Nat} (h : N ≤ k) : (s.obliging k).AnswersOk N := by
  rw [State.AnswersOk, State.obliging, List.take_replicate, Nat.min_eq_left h]

theorem exec_obliging (hs : s.Started) (k : Nat) : exec i (s.obliging k) = (program i s).run (s.obliging k) := by
  rw [exec_started i (s := s.obliging k) hs, program_congr (s := s) (t := s.obliging k) i rfl rfl rfl rfl rfl rfl]

theorem diskBytes_congr (h : t.disk = s.disk) (d st len : Nat) : t.diskBytes d st 0 len = s.diskBytes d st 0 len := by
  simp only [State.diskBytes, State.diskByte, h]

/-- The invariants of a stripe are those of its disk under the same CFG. -/
theorem invariants_withDisk (hn : t.cfgNdisks = s.cfgNdisks) (hbs : t.cfgBsize = s.cfgBsize) (st : Nat) :
    (t.InvariantP st → (s.withDisk t.disk).InvariantP st) ∧ (t.InvariantQ st → (s.withDisk t.disk).InvariantQ st) := by
  simp only [State.InvariantP, State.InvariantQ, State.stripeData, State.n, State.bs, hn, hbs]
  exact ⟨id, id⟩

/-- Settles O35: a run that succeeds changes the disk as with a store that answers OK, where each case restores its
blocks. -/
theorem recoveryRestoresStripe : Obligations.RecoveryRestoresStripe := by
  intro i before s t hi hcfg hn hnb hbs
  dsimp only
  intro hP hQ hagree hs h hidle herr
  obtain ⟨hP', hQ'⟩ := invariants_withDisk hn hbs (s.u 2)
  have hchecks : recoveryError i s = none := recoveryError_of_success hi hs h herr
  obtain ⟨N, hN⟩ := run_disk_of_success (exec_started i hs ▸ h) hidle herr
  obtain ⟨w, hw, hdisk⟩ := hN (s.obliging (N + s.n)) rfl rfl (obliging_answersOk (Nat.le_add_right _ _))
  have hrec : (s.obliging (N + s.n)).Recovers i :=
    ⟨hs, hchecks, nofun, obliging_answersOk (Nat.le_add_left _ _)⟩
  obtain ⟨w', hw', hrestored⟩ := hrec.restores (m := before.disk) hi hcfg hagree (hP' hP) (hQ.imp_right hQ')
  rw [exec_obliging hs, hw] at hw'
  cases hw'
  intro d hd
  exact (diskBytes_congr (s := s.withDisk w.disk) hdisk.symm d _ _).trans (hrestored d hd List.not_mem_nil)

end Sys2Proof.Machine

/-! ## The storage commands, request by request (R360 to R365) -/

namespace Sys2Proof.Machine

open Sys2Proof.Spec

variable {s : State} {i : Instr} {x : Nat → Byte} {a : Answer} {rest : List Answer} {kind : StoreFailure}

/-! ### INIT (R361) -/

theorem initProgram_layout (h : s.u 0 < 3 ∨ 257 < s.u 0) : initProgram s = .raise .layout noContext noContext :=
  if_pos h

theorem initProgram_config (h3 : 3 ≤ s.u 0) (hmax : s.u 0 ≤ 257)
    (h : s.u 1 = 0 ∨ s.u 2 = 0 ∨ s.params.maxBsize < s.u 2) : initProgram s = .raise .config noContext noContext := by
  have hn : ¬(s.u 0 < 3 ∨ maxDisks < s.u 0) := not_or.2 ⟨Nat.not_lt.2 h3, Nat.not_lt.2 hmax⟩
  exact (if_neg hn).trans (if_pos h)

theorem initProgram_pass (h3 : 3 ≤ s.u 0) (hmax : s.u 0 ≤ 257) (hnb : 1 ≤ s.u 1) (hbs : 1 ≤ s.u 2)
    (hle : s.u 2 ≤ s.params.maxBsize) :
    initProgram s = .done { cfg := some (s.argLatched 0, s.argLatched 1, s.argLatched 2) } := by
  have hn : ¬(s.u 0 < 3 ∨ maxDisks < s.u 0) := not_or.2 ⟨Nat.not_lt.2 h3, Nat.not_lt.2 hmax⟩
  have hb : ¬(s.u 1 = 0 ∨ s.u 2 = 0 ∨ s.params.maxBsize < s.u 2) := by omega
  simp only [initProgram, State.operandsInit, if_neg hn, if_neg hb, wordOf_u]

/-- Settles O20: the two checks in their order, then the geometry is staged. -/
theorem initResult : Obligations.InitResult := by
  refine ⟨decode_encode .init, fun s hs => ⟨fun h => exec_of_raise hs (initProgram_layout h),
    fun h3 hmax h => exec_of_raise hs (initProgram_config h3 hmax h), fun h3 hmax hnb hbs hle => ?_⟩⟩
  rw [exec_started _ hs, program, initProgram_pass h3 hmax hnb hbs hle]
  rfl

/-! ### The checks of a transfer (R360) -/

/-- The checks raise the error of the first one that fails, and go on with the resolved address where none does. -/
theorem transferChecks_eq (k : Nat → Nat → Prog) :
    transferChecks s s.operandsXfer k = .unlessError (transferError s) (k (target s).1 (target s).2) := by
  simp only [transferChecks, whenConfigured, whenDisk, State.operandsXfer, transferError, Prog.unlessError_ite,
    wordOf_u]
  rfl

/-- The three transfers begin with these checks. -/
theorem program_transfer (hi : i = .put ∨ i = .putraw ∨ i = .get) :
    ∃ k, program i s = transferChecks s s.operandsXfer k := by
  rcases hi with rfl | rfl | rfl
  · unfold program putProgram
    exact ⟨_, rfl⟩
  · unfold program putrawProgram
    exact ⟨_, rfl⟩
  · unfold program getProgram
    exact ⟨_, rfl⟩

/-- Settles O21: the program is the error of the first check that fails. -/
theorem transferErrors : Obligations.TransferErrors := by
  intro i s hi hs kind d b he
  obtain ⟨k, hk⟩ := program_transfer (s := s) hi
  rw [transferChecks_eq, he] at hk
  exact exec_of_raise hs hk

/-- A transfer that succeeds has passed its checks. -/
theorem transferError_of_success {t : State} (hi : i = .put ∨ i = .putraw ∨ i = .get) (hs : s.Started)
    (h : exec i s = .next t) (herr : t.err = false) : transferError s = none := by
  rw [Option.eq_none_iff_forall_ne_some]
  rintro ⟨kind, d, b⟩ he
  rw [transferErrors i s hi hs kind d b he] at h
  cases h
  cases herr

/-! ### GET (R365) -/

theorem getProgram_pass (he : transferError s = none) : program .get s = .ask (targetRead s) fun y =>
    .done { res := [(0, wordOf (target s).1), (1, wordOf (target s).2)], buf := some (s.u 3, y.take (s.u 2)) } := by
  rw [program, getProgram, transferChecks_pass he]
  rfl

theorem targetRead_inGeometry (he : transferError s = none) (hc : s.StoreCovers) :
    s.inGeometry (targetRead s) = true := by
  obtain ⟨-, hd, -, -, hst, hoff⟩ := transferError_eq_none.1 he
  exact hc.inGeometry hd hst hoff

/-- Settles O22: the one READ hands its bytes to the staged buffer write, or ends the command. -/
theorem getResult : Obligations.GetResult := by
  refine ⟨decode_encode .get, fun s hs he => ⟨fun hc ha => ?_, fun a rest kind ha hf => ?_⟩⟩
  · rw [exec_started _ hs, getProgram_pass he, run_ask_ok ha.head (targetRead_inGeometry he hc)]
    have hbytes : (s.diskBytes (s.u 0) (target s).1 (target s).2 (s.u 2)).take (s.u 2) =
        s.diskBytes (s.u 0) (target s).1 (target s).2 (s.u 2) := List.take_of_length_le (s.diskBytes_length ..).le
    simp only [targetRead, State.serve, hbytes]
    rfl
  · rw [exec_started _ hs, getProgram_pass he, run_ask_storeFails ha hf]
    simp only [State.storeFailed, targetRead, Request.disk, Request.block, ← wordOf_u]
    rfl

/-! ### PUTRAW (R364) -/

theorem putrawProgram_pass (he : transferError s = none) : program .putraw s = withBuffer s (s.u 3) (s.u 2) fun x =>
    bsWrite (s.u 0) (target s).1 (target s).2 x (transferDone (target s).1 (target s).2) := by
  rw [program, putrawProgram, transferChecks_pass he]
  rfl

theorem targetWrite_inside (he : transferError s = none) (x : Nat → Byte) : InsideCfg s (targetWrite s x) := by
  obtain ⟨-, hd, -, -, hst, hoff⟩ := transferError_eq_none.1 he
  exact ⟨hd, hst, by simpa [targetWrite, Request.off, Request.len, bytesOf_length] using hoff⟩

/-- Settles O23: the operand is read before the one WRITE, which stores it, or ends the command. -/
theorem putrawResult : Obligations.PutrawResult := by
  refine ⟨decode_encode .putraw, fun s hs he => ⟨fun hu => ?_, fun x hx =>
    ⟨fun hc ha => ?_, fun a rest kind ha hf => ?_⟩⟩⟩
  · rw [exec_started _ hs, putrawProgram_pass he, withBuffer_unwritten hu, Prog.run_stop]
  · obtain ⟨hd, hst, hoff⟩ := targetWrite_inside he x
    rw [exec_started _ hs, putrawProgram_pass he, withBuffer_holds hx, run_bsWrite ha.head (hc.inGeometry hd hst hoff)]
    rfl
  · have hrun : exec .putraw s = .next (s.storeFailed (targetWrite s x) kind rest) := by
      rw [exec_started _ hs, putrawProgram_pass he, withBuffer_holds hx]
      exact run_ask_storeFails ha hf
    refine ⟨_, hrun, ?_, fun d blk off hb ho hout => spoil_diskByte (targetWrite_inside he x) hb ho ?_⟩
    · rw [← wordOf_u]
      exact storeFailed_eq s (targetWrite s x) kind rest
    · rintro - ⟨hd, hblk, hlo, hhi⟩
      exact hout ⟨hd, hblk, hlo, by simpa [targetWrite, Request.off, Request.len, bytesOf_length] using hhi⟩

end Sys2Proof.Machine

/-! ## PUT and its parity (R362, R363) -/

namespace Sys2Proof.Machine

open Sys2Proof.Spec

variable {s t : State} {d k N st off len : Nat} {x : Block} {p : Prog} {o : Host.Outcome State Fault Refusal}

/-! ### Requests for a piece of a block that are answered with OK -/

/-- A READ of a piece of a block gives its bytes and uses one answer (R106). -/
theorem runsTo_readAt {f : Block → Prog} (h : s.Serves st N) (hd : d < s.n) (ho : off + len ≤ s.bs) (hk : k < N)
    (hf : (f (s.diskBytes d st off len)).RunsTo s (k + 1) o) : (bsRead d st off len f).RunsTo s k o := fun q =>
  (run_bsRead (s := s.used k q) (h.answers.drop_of_lt hk) (h.covers.inGeometry hd h.stripe_lt ho)).trans (hf _)

/-- A WRITE of a piece of a block stores it and uses one answer (R107). -/
theorem runsTo_writeAt (h : s.Serves st N) (hd : d < s.n) (ho : off + x.length ≤ s.bs) (hk : k < N)
    (hp : p.RunsTo (s.stored d st off x) (k + 1) o) : (bsWrite d st off x p).RunsTo s k o := fun q =>
  (run_bsWrite (s := s.used k q) (h.answers.drop_of_lt hk) (h.covers.inGeometry hd h.stripe_lt ho)).trans (hp _)

theorem State.Serves.storedAt (h : s.Serves st N) (d off : Nat) (x : Block) : (s.stored d st off x).Serves st N :=
  ⟨h.covers, h.stripe_lt, h.answers⟩

/-- The last step of a transfer, wherever its WRITEs have left the disk: RES0 is the stripe, RES1 the offset (R362 to
R365). -/
theorem runsTo_transferDone {v : State} (hv : v = { s with disk := v.disk }) :
    (transferDone (target s).1 (target s).2).RunsTo v k (.next { transferred s k with disk := v.disk }) := by
  intro q
  generalize v.disk = m at hv
  subst hv
  rfl

theorem runsTo_stop {f : Fault} : (Prog.stop f).RunsTo s k (.fault f) := fun _ => rfl

/-! ### The blocks of a stripe after a WRITE (R107) -/

/-- Byte `j` of a block with some bytes put in (R362). -/
theorem getElem?_overwrite {b : Block} (h : off + x.length ≤ b.length) (j : Nat) :
    (overwrite b off x)[j]? = if off ≤ j ∧ j < off + x.length then x[j - off]? else b[j]? := by
  have htake : (b.take off).length = off := List.length_take_of_le (by omega)
  rw [overwrite, List.append_assoc, List.getElem?_append, htake, List.getElem?_append]
  split_ifs
  · omega
  · exact List.getElem?_take_of_lt ‹_›
  · rfl
  · omega
  · omega
  · rw [List.getElem?_drop]
    congr 1
    omega

/-- The block written to takes the bytes at their offset. -/
theorem diskBytes_stored_block (hst : st < s.nb) (ho : off + x.length ≤ s.bs) :
    (s.stored d st off x).diskBytes d st 0 s.bs = overwrite (s.diskBytes d st 0 s.bs) off x := by
  have hnb : s.nb < 2 ^ 32 := s.cfgNblocks.isLt
  have hbs : s.bs < 2 ^ 32 := s.cfgBsize.isLt
  refine List.ext_getElem? fun j => ?_
  rw [getElem?_overwrite (by rwa [State.diskBytes_length])]
  by_cases hj : j < s.bs
  · simp only [State.diskBytes, List.getElem?_map, List.getElem?_range hj, Option.map_some, Nat.zero_add]
    split
    next hin =>
      obtain ⟨i, rfl⟩ := Nat.exists_eq_add_of_le hin.1
      have hi : i < x.length := by omega
      rw [State.diskByte_stored _ _ _ _ _ _ hi, Nat.add_sub_cancel_left, List.getElem?_eq_getElem hi]
    next hout =>
      rw [State.diskByte_stored_other _ _ _ _ _ _ _ _ (by omega) (by omega) (by omega) (by omega)
        fun h => hout ⟨h.2.2.1, h.2.2.2⟩]
  · have hout : ¬(off ≤ j ∧ j < off + x.length) := by omega
    simp [State.diskBytes, hout, Nat.not_lt.1 hj]

/-- Every other block of the stripe is as before. -/
theorem diskBytes_stored_disk {e off' : Nat} (hne : e ≠ d) (hst : st < s.nb) (ho : off + x.length ≤ s.bs)
    (ho' : off' + len ≤ s.bs) : (s.stored d st off x).diskBytes e st off' len = s.diskBytes e st off' len := by
  have hnb : s.nb < 2 ^ 32 := s.cfgNblocks.isLt
  have hbs : s.bs < 2 ^ 32 := s.cfgBsize.isLt
  exact s.diskBytes_stored_other d st off x e st off' len (by omega) (by omega) (by omega) (by omega) fun h => hne h.1

/-- A WRITE to a data disk changes its slot of the stripe's data blocks. -/
theorem stripeData_stored_data (hk : (dataDisks s.n st)[k]? = some d) (hst : st < s.nb) (ho : off + x.length ≤ s.bs) :
    (s.stored d st off x).stripeData st = (s.stripeData st).modify k fun b => overwrite b off x := by
  obtain ⟨hlt, rfl⟩ := List.getElem?_eq_some_iff.1 hk
  refine List.ext_getElem (by simp [State.stripeData, State.n]) fun j hj _ => ?_
  have hjl : j < (dataDisks s.n st).length := by simpa [State.stripeData, State.n] using hj
  simp only [State.stripeData, List.getElem_map, List.getElem_modify]
  split
  next hkj =>
    subst hkj
    exact diskBytes_stored_block hst ho
  next hkj =>
    have hne : (dataDisks s.n st)[j] ≠ (dataDisks s.n st)[k] := fun he =>
      hkj ((dataDisks_nodup _ _).getElem_inj_iff.1 he).symm
    exact diskBytes_stored_disk hne hst ho (Nat.zero_add _).le

/-- A WRITE to a parity disk leaves the stripe's data blocks alone. -/
theorem stripeData_stored_parity (hd : isParity s.n d st = true) (hst : st < s.nb) (ho : off + x.length ≤ s.bs) :
    (s.stored d st off x).stripeData st = s.stripeData st :=
  List.map_congr_left fun _ he =>
    diskBytes_stored_disk (ne_of_roles (mem_dataDisks.1 he).2 hd) hst ho (Nat.zero_add _).le

/-! ### The disk a transfer addresses (R285, R360) -/

/-- A transfer resolves to a stripe in which its disk holds data. -/
theorem isParity_target (he : transferError s = none) : isParity s.n (s.u 0) (target s).1 = false := by
  obtain ⟨hn, hd, -⟩ := transferError_eq_none.1 he
  exact (resolve_spec hn hd s.bs (s.u 1)).1

/-- Its ordinal is its index among the stripe's data disks. -/
theorem dataDisks_target (he : transferError s = none) :
    (dataDisks s.n (target s).1)[ordinal s.n (s.u 0) (target s).1]? = some (s.u 0) := by
  obtain ⟨hn, hd, -⟩ := transferError_eq_none.1 he
  exact dataDisks_ordinal (by omega) hd (isParity_target he)

/-! ### RECOMPUTE (R362) -/

/-- `s` with the operand in its place. -/
def State.dataPut (s : State) (x : Block) : State := s.stored (s.u 0) (target s).1 (target s).2 x

/-- `s` with P and Q of the stripe as computed from its data blocks. -/
def State.parityPut (s : State) (st : Nat) : State :=
  (s.stored (pDisk s st) st 0 (pParity s.bs (s.stripeData st))).stored (qDisk s st) st 0
    (qParity s.bs (s.stripeData st))

/-- The blocks PUT computes P and Q of are the stripe's data blocks as they are after its data WRITE. -/
theorem overwritten_eq_stripeData (he : transferError s = none) (hx : x.length = s.u 2) :
    s.overwritten x = (s.dataPut x).stripeData (target s).1 := by
  obtain ⟨-, -, -, -, hst, ho⟩ := transferError_eq_none.1 he
  exact (stripeData_stored_data (dataDisks_target he) hst (hx.symm ▸ ho)).symm

/-- The two parity WRITES of a RECOMPUTE PUT, answered with OK. -/
theorem runsTo_putParityWrites (hn : 3 ≤ s.n) (h : s.Serves (target s).1 N) (hk : k + 2 ≤ N) :
    (putParityWrites s (s.stripeData (target s).1)).RunsTo s k
      (.next { transferred s (k + 2) with disk := (s.parityPut (target s).1).disk }) :=
  runsTo_write h (pDisk_lt hn _) (pParity_length_le _ _) (by omega) <|
    runsTo_write (h.stored _ _) (qDisk_lt hn _) (qParity_length_le _ _) (by omega) (runsTo_transferDone rfl)

/-- A RECOMPUTE PUT with n + 1 answers of OK stores its operand, then P and Q. -/
theorem exec_putRecompute (hs : s.Started) (hm : s.params.putParityMode = .recompute) (he : transferError s = none)
    (hc : s.StoreCovers) (ha : s.AnswersOk (s.n + 1)) {x : Nat → Byte} (hx : Holds s (s.u 3) (s.u 2) x) :
    exec .put s = .next { transferred s (s.n + 1) with
      disk := ((s.dataPut (bytesOf (s.u 2) x)).parityPut (target s).1).disk } := by
  obtain ⟨hn, -, -, -, hst, -⟩ := transferError_eq_none.1 he
  obtain ⟨q, hq⟩ := run_putRecompute_data hs hm he hc (ha.mono (by omega)) hx
  have hserves : (s.dataPut (bytesOf (s.u 2) x)).Serves (target s).1 (s.n + 1) := ⟨hc, hst, ha⟩
  have hused : s.n + 1 = s.n - 1 + 2 := by omega
  rw [hq, overwritten_eq_stripeData he (bytesOf_length _ _), hused]
  exact runsTo_putParityWrites (s := s.dataPut (bytesOf (s.u 2) x)) hn hserves hused.ge q

/-- Settles O24: the stripe is read, then the operand; the data is written, then P and Q of the data as it then is. -/
theorem putRecomputeResult : Obligations.PutRecomputeResult := by
  refine ⟨decode_encode .put, fun s hs hm he hc => ⟨fun ha hu => ?_, fun ha x hx =>
    exec_putRecompute hs hm he hc ha hx⟩⟩
  obtain ⟨q, hq⟩ := run_putRecompute_reads hs hm he hc ha
  rw [hq, withBuffer_unwritten hu, Prog.run_stop]

/-! ### INCREMENTAL (R363) -/

/-- The bytes a PUT of `x` makes of the addressed bytes of P and of Q (R245, R363). -/
def State.deltaP (s : State) (x : Block) : Block :=
  pUpdate (s.diskBytes (s.u 0) (target s).1 (target s).2 (s.u 2)) x
    (s.diskBytes (pDisk s (target s).1) (target s).1 (target s).2 (s.u 2))

def State.deltaQ (s : State) (x : Block) : Block :=
  qUpdate (s.diskBytes (s.u 0) (target s).1 (target s).2 (s.u 2)) x
    (s.diskBytes (qDisk s (target s).1) (target s).1 (target s).2 (s.u 2)) (ordinal s.n (s.u 0) (target s).1)

/-- `s` with the operand in its place and its delta in the same bytes of P and Q. -/
def State.deltaPut (s : State) (x : Block) : State :=
  ((s.dataPut x).stored (pDisk s (target s).1) (target s).1 (target s).2 (s.deltaP x)).stored
    (qDisk s (target s).1) (target s).1 (target s).2 (s.deltaQ x)

/-- With three answers of OK an INCREMENTAL PUT has read the old bytes, and goes on to its operand. -/
theorem runsTo_putIncremental (he : transferError s = none) (h : s.Serves (target s).1 N) (hN : 3 ≤ N)
    (hrest : (withBuffer s (s.u 3) (s.u 2) fun x =>
        bsWrite (s.u 0) (target s).1 (target s).2 x <|
        bsWrite (pDisk s (target s).1) (target s).1 (target s).2 (s.deltaP x) <|
        bsWrite (qDisk s (target s).1) (target s).1 (target s).2 (s.deltaQ x) <|
        transferDone (target s).1 (target s).2).RunsTo s 3 o) :
    (putIncremental s s.operandsXfer (target s).1 (target s).2).RunsTo s 0 o := by
  obtain ⟨hn, hd, -, -, -, ho⟩ := transferError_eq_none.1 he
  exact runsTo_readAt h hd ho (by omega) <| runsTo_readAt h (pDisk_lt hn _) ho (by omega) <|
    runsTo_readAt h (qDisk_lt hn _) ho (by omega) hrest

theorem exec_put_incremental_eq (hs : s.Started) (hm : s.params.putParityMode = .incremental)
    (he : transferError s = none) (h : (putIncremental s s.operandsXfer (target s).1 (target s).2).RunsTo s 0 o) :
    exec .put s = o := by
  rw [exec_started _ hs, program, putProgram, transferChecks_pass he, hm]
  exact h.run

/-- An INCREMENTAL PUT with six answers of OK stores its operand and the two deltas. -/
theorem exec_putIncremental (hs : s.Started) (hm : s.params.putParityMode = .incremental) (he : transferError s = none)
    (hc : s.StoreCovers) (ha : s.AnswersOk 6) {x : Nat → Byte} (hx : Holds s (s.u 3) (s.u 2) x) :
    exec .put s = .next { transferred s 6 with disk := (s.deltaPut (bytesOf (s.u 2) x)).disk } := by
  obtain ⟨hn, hd, -, -, hst, ho⟩ := transferError_eq_none.1 he
  have hserves : s.Serves (target s).1 6 := ⟨hc, hst, ha⟩
  have hx' : (bytesOf (s.u 2) x).length = s.u 2 := bytesOf_length _ _
  have hfits {y : Block} (hy : y.length ≤ (bytesOf (s.u 2) x).length) : (target s).2 + y.length ≤ s.bs := by omega
  refine exec_put_incremental_eq hs hm he (runsTo_putIncremental he hserves (by omega) ?_)
  rw [withBuffer_holds hx]
  exact runsTo_writeAt hserves hd (hfits le_rfl) (by omega) <|
    runsTo_writeAt (hserves.storedAt _ _ _) (pDisk_lt hn _) (hfits (xorBlock_length_le _ _)) (by omega) <|
    runsTo_writeAt ((hserves.storedAt _ _ _).storedAt _ _ _) (qDisk_lt hn _) (hfits (qUpdate_length_le _ _ _ _))
      (by omega) (runsTo_transferDone (k := 6) rfl)

/-- Settles O25: the old bytes are read, then the operand; the data is written, then the updates of R245 at the same
offset. -/
theorem putIncrementalResult : Obligations.PutIncrementalResult := by
  refine ⟨decode_encode .put, fun s hs hm he hc => ⟨fun ha hu => ?_, fun ha x hx => ?_⟩⟩
  · obtain ⟨-, -, -, -, hst, -⟩ := transferError_eq_none.1 he
    refine exec_put_incremental_eq hs hm he (runsTo_putIncremental he ⟨hc, hst, ha⟩ le_rfl ?_)
    rw [withBuffer_unwritten hu]
    exact runsTo_stop
  · refine ⟨_, dataDisks_target he, (exec_putIncremental hs hm he hc ha hx).trans ?_⟩
    have hdisk (d : Nat) : s.diskBytes d (target s).1 (target s).2 (s.u 2) =
        bytesOf (s.u 2) fun i => s.diskByte d (target s).1 ((target s).2 + i) := rfl
    rw [State.deltaPut, State.deltaP, State.deltaQ, hdisk, hdisk, hdisk, pUpdate_bytesOf, qUpdate_eq_pUpdate,
      scaleBlock_bytesOf, scaleBlock_bytesOf, pUpdate_bytesOf]
    rfl

end Sys2Proof.Machine

/-! ## What a successful PUT leaves (R366, R367) -/

namespace Sys2Proof.Machine

open Sys2Proof.Spec

variable {s t u v w : State} {d st off len k : Nat} {x y : Block} {r : Request}

/-! ### Runs that succeed (R75) -/

/-- A run that succeeds goes on past its next request, which was served: nothing but the BlockStore, its inputs and the
sequencer has changed. -/
theorem run_ask_of_success {f : Block → Prog} (h : (Prog.ask r f).run s = .next t) (hidle : t.seq = .idle)
    (herr : t.err = false) :
    ∃ w, s.SameCore w ∧ w.disk = (s.serve r).1.disk ∧ (f (s.serve r).2).run w = .next t := by
  have hsame := s.receive_same r
  have hseq := s.receive_seq r
  rw [Prog.run] at h
  split at h
  case h_1 w bytes hw =>
    obtain ⟨hdisk, rfl⟩ := serve_of_receive_ok hw
    rw [hw] at hsame
    exact ⟨w, hsame, hdisk, h⟩
  case h_2 w kind hw =>
    cases h
    cases herr
  case h_3 w hw =>
    cases h
    rw [hw, hidle] at hseq
    cases hseq

/-- Each byte of an operand has a value, or one has none. -/
theorem holds_or_unwritten (s : State) (b len : Nat) : (∃ x, Holds s b len x) ∨ Unwritten s b len := by
  by_cases h : Unwritten s b len
  · exact .inr h
  · refine .inl ⟨fun i => (s.bufByte b i).getD 0#8, fun i hi => ?_⟩
    cases hb : s.bufByte b i with
    | none => exact absurd ⟨i, hi, hb⟩ h
    | some c => simp only [hb, Option.getD_some]

/-- The store after a successful PUT, by the mode of the build (R362, R363). -/
def State.put (s : State) (x : Block) : State :=
  match s.params.putParityMode with
  | .recompute => (s.dataPut x).parityPut (target s).1
  | .incremental => s.deltaPut x

/-- It is a function of the disk, not of the BlockStore's answers and geometry. -/
theorem put_obliging (s : State) (k : Nat) (x : Block) : ((s.obliging k).put x).disk = (s.put x).disk := by
  simp only [State.put, State.obliging]
  cases s.params.putParityMode <;> rfl

/-- With enough answers of OK a PUT with a written operand leaves that store, and one with an unwritten operand stops. -/
theorem exec_put_served (hs : s.Started) (he : transferError s = none) (hc : s.StoreCovers)
    (ha : s.AnswersOk (s.n + 4)) :
    (Unwritten s (s.u 3) (s.u 2) → exec .put s = .fault .unwrittenBuffer) ∧
    ∀ x, Holds s (s.u 3) (s.u 2) x → ∃ w, exec .put s = .next w ∧ w.disk = (s.put (bytesOf (s.u 2) x)).disk := by
  have hn : 3 ≤ s.n := (transferError_eq_none.1 he).1
  unfold State.put
  cases hm : s.params.putParityMode with
  | recompute =>
    obtain ⟨hstop, -⟩ := putRecomputeResult.2 s hs hm he hc
    exact ⟨hstop (ha.mono (by omega)), fun x hx => ⟨_, exec_putRecompute hs hm he hc (ha.mono (by omega)) hx, rfl⟩⟩
  | incremental =>
    obtain ⟨hstop, -⟩ := putIncrementalResult.2 s hs hm he hc
    exact ⟨hstop (ha.mono (by omega)), fun x hx => ⟨_, exec_putIncremental hs hm he hc (ha.mono (by omega)) hx, rfl⟩⟩

/-- A PUT that succeeds has passed its checks and read its operand, and leaves the store as with answers of OK. -/
theorem put_of_success (hs : s.Started) (h : exec .put s = .next t) (hidle : t.seq = .idle) (herr : t.err = false) :
    transferError s = none ∧ ∃ x, Holds s (s.u 3) (s.u 2) x ∧ t.disk = (s.put (bytesOf (s.u 2) x)).disk := by
  have he := transferError_of_success (.inl rfl) hs h herr
  obtain ⟨N, hN⟩ := run_disk_of_success (exec_started .put hs ▸ h) hidle herr
  obtain ⟨w, hw, hdisk⟩ := hN (s.obliging (N + (s.n + 4))) rfl rfl (obliging_answersOk (Nat.le_add_right _ _))
  rw [← exec_obliging hs] at hw
  obtain ⟨hstop, hput⟩ := exec_put_served (s := s.obliging (N + (s.n + 4))) hs he nofun
    (obliging_answersOk (Nat.le_add_left _ _))
  refine ⟨he, ?_⟩
  rcases holds_or_unwritten s (s.u 3) (s.u 2) with ⟨x, hx⟩ | hu
  · obtain ⟨w', hw', hdisk'⟩ := hput x hx
    rw [hw] at hw'
    cases hw'
    exact ⟨x, hx, hdisk.symm.trans (hdisk'.trans (put_obliging s _ _))⟩
  · rw [hstop hu] at hw
    cases hw

/-! ### The parity of blocks with some bytes replaced (R245) -/

/-- A READ of a piece of a block is that piece of the block. -/
theorem diskBytes_piece (s : State) (d st : Nat) (h : off + len ≤ k) :
    s.diskBytes d st off len = ((s.diskBytes d st 0 k).drop off).take len := by
  refine List.ext_getElem (by simp; omega) fun j _ _ => ?_
  simp [State.diskBytes]

theorem xorBlock_append {a b a' b' : Block} (h : a.length = b.length) :
    xorBlock (a ++ a') (b ++ b') = xorBlock a b ++ xorBlock a' b' := List.zipWith_append h

theorem length_pUpdate {a b p : Block} (ha : a.length = len) (hb : b.length = len) (hp : p.length = len) :
    (pUpdate a b p).length = len := xorBlock_length (xorBlock_length hp ha) hb

theorem pUpdate_append {a b p a' b' p' : Block} (ha : a.length = len) (hb : b.length = len) (hp : p.length = len) :
    pUpdate (a ++ a') (b ++ b') (p ++ p') = pUpdate a b p ++ pUpdate a' b' p' := by
  have hpa : (xorBlock p a).length = b.length := (xorBlock_length hp ha).trans hb.symm
  rw [pUpdate, xorBlock_append (hp.trans ha.symm), xorBlock_append hpa, pUpdate, pUpdate]

/-- Bytes that stay the same have no delta. -/
theorem pUpdate_self {b par : Block} (h : b.length = par.length) : pUpdate b b par = par := by
  rw [pUpdate, xorBlock_comm, xorBlock_comm par]
  exact xorBlock_cancel_left h

/-- A block is what is before a piece of it, the piece, and what is after. -/
theorem eq_take_append_piece_append_drop (b : Block) (off len : Nat) :
    b = b.take off ++ (b.drop off).take len ++ b.drop (off + len) := by
  rw [List.append_assoc, ← List.drop_drop, List.take_append_drop, List.take_append_drop]

/-- The delta at its own offset is the delta of the whole block. -/
theorem overwrite_pUpdate {b par : Block} (hpar : par.length = b.length) (h : off + x.length ≤ b.length) :
    overwrite par off (pUpdate ((b.drop off).take x.length) x ((par.drop off).take x.length)) =
      pUpdate b (overwrite b off x) par := by
  have htake (c : Block) (hc : c.length = b.length) : (c.take off).length = off := List.length_take_of_le (by omega)
  have hpiece (c : Block) (hc : c.length = b.length) : ((c.drop off).take x.length).length = x.length :=
    List.length_take_of_le (by rw [List.length_drop]; omega)
  have hdrop : (b.drop (off + x.length)).length = (par.drop (off + x.length)).length := by
    rw [List.length_drop, List.length_drop, hpar]
  have hlen := length_pUpdate (hpiece b rfl) rfl (hpiece par hpar)
  calc overwrite par off (pUpdate ((b.drop off).take x.length) x ((par.drop off).take x.length))
    _ = pUpdate (b.take off) (b.take off) (par.take off) ++
          pUpdate ((b.drop off).take x.length) x ((par.drop off).take x.length) ++
          pUpdate (b.drop (off + x.length)) (b.drop (off + x.length)) (par.drop (off + x.length)) := by
      rw [pUpdate_self ((htake b rfl).trans (htake par hpar).symm), pUpdate_self hdrop, overwrite, hlen]
    _ = pUpdate (b.take off ++ (b.drop off).take x.length ++ b.drop (off + x.length)) (overwrite b off x)
          (par.take off ++ (par.drop off).take x.length ++ par.drop (off + x.length)) := by
      rw [overwrite, ← pUpdate_append (htake b rfl) (htake b rfl) (htake par hpar),
        ← pUpdate_append (len := off + x.length)]
      all_goals simp only [List.length_append, htake b rfl, htake par hpar, hpiece b rfl, hpiece par hpar]
    _ = pUpdate b (overwrite b off x) par := by
      rw [← eq_take_append_piece_append_drop, ← eq_take_append_piece_append_drop]

theorem overwrite_scaleBlock (b : Block) (c : Byte) :
    overwrite (scaleBlock b c) off (scaleBlock x c) = scaleBlock (overwrite b off x) c := by
  simp only [overwrite, scaleBlock, List.map_append, List.map_take, List.map_drop, List.length_map]

theorem overwrite_qUpdate {b par : Block} (hpar : par.length = b.length) (h : off + x.length ≤ b.length) (k : Int) :
    overwrite par off (qUpdate ((b.drop off).take x.length) x ((par.drop off).take x.length) k) =
      qUpdate b (overwrite b off x) par k := by
  have hscaled := overwrite_pUpdate (b := scaleBlock b (gfPow k)) (x := scaleBlock x (gfPow k)) (par := par)
    (off := off) (by rwa [scaleBlock_length]) (by rwa [scaleBlock_length, scaleBlock_length])
  rw [scaleBlock_length, overwrite_scaleBlock] at hscaled
  rw [qUpdate_eq_pUpdate, qUpdate_eq_pUpdate, ← hscaled]
  simp only [scaleBlock, List.map_take, List.map_drop]

/-! ### The invariants of the stripe (R366(a)) -/

/-- The invariants of a stripe are about the disk and CFG. -/
theorem invariants_of_disk (hd : t.disk = u.disk) (hn : t.cfgNdisks = u.cfgNdisks) (hbs : t.cfgBsize = u.cfgBsize)
    (st : Nat) :
    (u.InvariantP st → t.InvariantP st) ∧ (u.InvariantQ st → t.InvariantQ st) := by
  have h := invariants_withDisk (s := t) hn.symm hbs.symm st
  rwa [← hd] at h

theorem diskBytes_stored_whole (hx : x.length = s.bs) : (s.stored d st 0 x).diskBytes d st 0 s.bs = x :=
  hx ▸ s.diskBytes_stored d st 0 x

/-- P and Q computed of the data blocks make (P) and (Q) true. -/
theorem parityPut_invariants (hn : 3 ≤ s.n) (hst : st < s.nb) :
    (s.parityPut st).InvariantP st ∧ (s.parityPut st).InvariantQ st := by
  have hP : (pParity s.bs (s.stripeData st)).length = s.bs := pParity_length length_of_mem_stripeData
  have hQ : (qParity s.bs (s.stripeData st)).length = s.bs := qParity_length length_of_mem_stripeData
  have hfits {y : Block} (hy : y.length = s.bs) : 0 + y.length ≤ s.bs := by omega
  have hdata : (s.parityPut st).stripeData st = s.stripeData st :=
    (stripeData_stored_parity (s := s.stored _ _ _ _) (isParity_qDisk s st) hst (hfits hQ)).trans
      (stripeData_stored_parity (isParity_pDisk s st) hst (hfits hP))
  rw [State.InvariantP, State.InvariantQ, hdata]
  refine ⟨?_, diskBytes_stored_whole (s := s.stored _ _ _ _) hQ⟩
  exact (diskBytes_stored_disk (s := s.stored _ _ _ _) (pDisk_ne_qDisk hn st) hst (hfits hQ) (Nat.zero_add _).le).trans
    (diskBytes_stored_whole hP)

section Delta

variable (he : transferError s = none) (hx : x.length = s.u 2)

include hx in
theorem length_deltaP : (s.deltaP x).length = s.u 2 := length_pUpdate (s.diskBytes_length ..) hx (s.diskBytes_length ..)

include hx in
theorem length_deltaQ : (s.deltaQ x).length = s.u 2 :=
  length_pUpdate ((scaleBlock_length _ _).trans (s.diskBytes_length ..)) ((scaleBlock_length _ _).trans hx)
    (s.diskBytes_length ..)

include he

/-- What PUT writes fits in a block. -/
theorem put_fits (hy : y.length = s.u 2) : (target s).2 + y.length ≤ s.bs := by
  obtain ⟨-, -, -, -, -, ho⟩ := transferError_eq_none.1 he
  omega

include hx

/-- The data blocks of the stripe have the operand in its place. -/
theorem deltaPut_stripeData :
    (s.deltaPut x).stripeData (target s).1 = (s.stripeData (target s).1).set (ordinal s.n (s.u 0) (target s).1)
      (overwrite (s.diskBytes (s.u 0) (target s).1 0 s.bs) (target s).2 x) := by
  obtain ⟨-, -, -, -, hst, -⟩ := transferError_eq_none.1 he
  have hk := dataDisks_target he
  calc (s.deltaPut x).stripeData (target s).1
    _ = ((s.dataPut x).stored _ _ _ (s.deltaP x)).stripeData (target s).1 :=
      stripeData_stored_parity (s := (s.dataPut x).stored _ _ _ _) (isParity_qDisk s _) hst
        (put_fits he (length_deltaQ hx))
    _ = (s.dataPut x).stripeData (target s).1 :=
      stripeData_stored_parity (s := s.dataPut x) (isParity_pDisk s _) hst (put_fits he (length_deltaP hx))
    _ = (s.stripeData (target s).1).modify (ordinal s.n (s.u 0) (target s).1) fun b => overwrite b (target s).2 x :=
      stripeData_stored_data hk hst (put_fits he hx)
    _ = _ := by
      rw [List.modify_eq_set_getElem?, stripeData_getElem? hk]
      rfl

/-- The delta of P at its offset is the delta of the whole block. -/
theorem deltaPut_pDisk :
    (s.deltaPut x).diskBytes (pDisk s (target s).1) (target s).1 0 s.bs =
      pUpdate (s.diskBytes (s.u 0) (target s).1 0 s.bs)
        (overwrite (s.diskBytes (s.u 0) (target s).1 0 s.bs) (target s).2 x)
        (s.diskBytes (pDisk s (target s).1) (target s).1 0 s.bs) := by
  obtain ⟨hn, -, -, -, hst, ho⟩ := transferError_eq_none.1 he
  have hdata : pDisk s (target s).1 ≠ s.u 0 := (ne_of_roles (isParity_target he) (isParity_pDisk s _)).symm
  calc (s.deltaPut x).diskBytes (pDisk s (target s).1) (target s).1 0 s.bs
    _ = ((s.dataPut x).stored _ _ _ (s.deltaP x)).diskBytes (pDisk s (target s).1) (target s).1 0 s.bs :=
      diskBytes_stored_disk (s := (s.dataPut x).stored _ _ _ _) (pDisk_ne_qDisk hn _) hst
        (put_fits he (length_deltaQ hx)) (Nat.zero_add _).le
    _ = overwrite ((s.dataPut x).diskBytes (pDisk s (target s).1) (target s).1 0 s.bs) (target s).2 (s.deltaP x) :=
      diskBytes_stored_block (s := s.dataPut x) hst (put_fits he (length_deltaP hx))
    _ = overwrite (s.diskBytes (pDisk s (target s).1) (target s).1 0 s.bs) (target s).2 (s.deltaP x) := by
      rw [State.dataPut, diskBytes_stored_disk hdata hst (put_fits he hx) (Nat.zero_add _).le]
    _ = _ := by
      rw [State.deltaP, diskBytes_piece s _ _ ho, diskBytes_piece s _ _ ho, ← hx]
      exact overwrite_pUpdate (by simp) (by simpa [hx] using ho)

/-- The delta of Q likewise. -/
theorem deltaPut_qDisk :
    (s.deltaPut x).diskBytes (qDisk s (target s).1) (target s).1 0 s.bs =
      qUpdate (s.diskBytes (s.u 0) (target s).1 0 s.bs)
        (overwrite (s.diskBytes (s.u 0) (target s).1 0 s.bs) (target s).2 x)
        (s.diskBytes (qDisk s (target s).1) (target s).1 0 s.bs) (ordinal s.n (s.u 0) (target s).1) := by
  obtain ⟨hn, -, -, -, hst, ho⟩ := transferError_eq_none.1 he
  have hdata : qDisk s (target s).1 ≠ s.u 0 := (ne_of_roles (isParity_target he) (isParity_qDisk s _)).symm
  calc (s.deltaPut x).diskBytes (qDisk s (target s).1) (target s).1 0 s.bs
    _ = overwrite (((s.dataPut x).stored _ _ _ (s.deltaP x)).diskBytes (qDisk s (target s).1) (target s).1 0 s.bs)
          (target s).2 (s.deltaQ x) :=
      diskBytes_stored_block (s := (s.dataPut x).stored _ _ _ _) hst (put_fits he (length_deltaQ hx))
    _ = overwrite ((s.dataPut x).diskBytes (qDisk s (target s).1) (target s).1 0 s.bs) (target s).2 (s.deltaQ x) :=
      congrArg (overwrite · _ _) <| diskBytes_stored_disk (s := s.dataPut x) (pDisk_ne_qDisk hn _).symm hst
        (put_fits he (length_deltaP hx)) (Nat.zero_add _).le
    _ = overwrite (s.diskBytes (qDisk s (target s).1) (target s).1 0 s.bs) (target s).2 (s.deltaQ x) := by
      rw [State.dataPut, diskBytes_stored_disk hdata hst (put_fits he hx) (Nat.zero_add _).le]
    _ = _ := by
      rw [State.deltaQ, diskBytes_piece s _ _ ho, diskBytes_piece s _ _ ho, ← hx]
      exact overwrite_qUpdate (by simp) (by simpa [hx] using ho) _

/-- The deltas keep (P) and (Q) where they were true (R252). -/
theorem deltaPut_invariants :
    (s.InvariantP (target s).1 → (s.deltaPut x).InvariantP (target s).1) ∧
      (s.InvariantQ (target s).1 → (s.deltaPut x).InvariantQ (target s).1) := by
  obtain ⟨hlt, hget⟩ := List.getElem?_eq_some_iff.1 (stripeData_getElem? (dataDisks_target he))
  refine ⟨fun hP => (deltaPut_pDisk he hx).trans ?_, fun hQ => (deltaPut_qDisk he hx).trans ?_⟩
  · have hP' : s.diskBytes (pDisk s (target s).1) (target s).1 0 s.bs = _ := hP
    rw [hP', ← hget, pUpdate_pParity _ hlt length_of_mem_stripeData, deltaPut_stripeData he hx, hget]
    rfl
  · have hQ' : s.diskBytes (qDisk s (target s).1) (target s).1 0 s.bs = _ := hQ
    rw [hQ', ← hget, qUpdate_qParity _ hlt length_of_mem_stripeData, deltaPut_stripeData he hx, hget]
    rfl

/-- So a PUT makes (P) and (Q) true, or keeps each, by its mode. -/
theorem put_invariants :
    (s.params.putParityMode = .recompute → (s.put x).InvariantP (target s).1 ∧ (s.put x).InvariantQ (target s).1) ∧
      (s.params.putParityMode = .incremental →
        (s.InvariantP (target s).1 → (s.put x).InvariantP (target s).1) ∧
        (s.InvariantQ (target s).1 → (s.put x).InvariantQ (target s).1)) := by
  obtain ⟨hn, -, -, -, hst, -⟩ := transferError_eq_none.1 he
  unfold State.put
  cases s.params.putParityMode with
  | recompute => exact ⟨fun _ => parityPut_invariants (s := s.dataPut x) hn hst, nofun⟩
  | incremental => exact ⟨nofun, fun _ => deltaPut_invariants he hx⟩

end Delta

theorem put_cfg (s : State) (x : Block) : (s.put x).cfgNdisks = s.cfgNdisks ∧ (s.put x).cfgBsize = s.cfgBsize := by
  unfold State.put
  cases s.params.putParityMode <;> exact ⟨rfl, rfl⟩

/-- Settles O26: the store is that of a PUT answered with OK, whose parity is computed afresh or moved by the delta. -/
theorem putKeepsStripeInvariants : Obligations.PutKeepsStripeInvariants := by
  intro s t hs h hidle herr
  dsimp only
  obtain ⟨he, x, -, hdisk⟩ := put_of_success hs h hidle herr
  obtain ⟨-, -, -, -, -, -, -, -, -, hcfg, -⟩ := commandRegisterFrame .put s t h
  obtain ⟨hn, -, hbs⟩ := hcfg nofun
  obtain ⟨hputn, hputbs⟩ := put_cfg s (bytesOf (s.u 2) x)
  obtain ⟨hmoveP, hmoveQ⟩ := invariants_of_disk hdisk (hn.trans hputn.symm) (hbs.trans hputbs.symm) (target s).1
  obtain ⟨hrecompute, hincremental⟩ := put_invariants he (bytesOf_length (s.u 2) x)
  refine ⟨fun hm => ?_, fun hm => ?_⟩
  · exact (hrecompute hm).imp hmoveP hmoveQ
  · exact (hincremental hm).imp (hmoveP ∘ ·) (hmoveQ ∘ ·)

/-! ### The round trip (R367) -/

/-- A successful PUT leaves its operand at its address: the later WRITEs are to other disks. -/
theorem put_operand (he : transferError s = none) (hx : x.length = s.u 2) :
    (s.put x).diskBytes (s.u 0) (target s).1 (target s).2 (s.u 2) = x := by
  obtain ⟨hn, -, -, -, hst, ho⟩ := transferError_eq_none.1 he
  have hp : s.u 0 ≠ pDisk s (target s).1 := ne_of_roles (isParity_target he) (isParity_pDisk s _)
  have hq : s.u 0 ≠ qDisk s (target s).1 := ne_of_roles (isParity_target he) (isParity_qDisk s _)
  have hdata : (s.dataPut x).diskBytes (s.u 0) (target s).1 (target s).2 (s.u 2) = x :=
    hx ▸ s.diskBytes_stored (s.u 0) (target s).1 (target s).2 x
  have hkeep {off₁ off₂ : Nat} {y z : Block} (hy : off₁ + y.length ≤ s.bs) (hz : off₂ + z.length ≤ s.bs) :
      (((s.dataPut x).stored (pDisk s (target s).1) (target s).1 off₁ y).stored (qDisk s (target s).1) (target s).1
        off₂ z).diskBytes (s.u 0) (target s).1 (target s).2 (s.u 2) = x :=
    (diskBytes_stored_disk (s := (s.dataPut x).stored _ _ _ _) hq hst hz ho).trans <|
      (diskBytes_stored_disk (s := s.dataPut x) hp hst hy ho).trans hdata
  unfold State.put
  cases s.params.putParityMode with
  | recompute =>
    exact hkeep ((Nat.zero_add _).trans_le (pParity_length_le _ _)) ((Nat.zero_add _).trans_le (qParity_length_le _ _))
  | incremental => exact hkeep (put_fits he (length_deltaP hx)) (put_fits he (length_deltaQ hx))

/-- A GET that succeeds leaves the addressed bytes of the disk in its buffer. -/
theorem get_of_success (hs : s.Started) (h : exec .get s = .next t) (hidle : t.seq = .idle) (herr : t.err = false)
    (hk : k < s.u 2) : t.bufByte (s.u 3) k = some (s.diskByte (s.u 0) (target s).1 ((target s).2 + k)) := by
  have he := transferError_of_success (.inr (.inr rfl)) hs h herr
  rw [exec_started _ hs, getProgram_pass he] at h
  obtain ⟨w, hw, -, hrun⟩ := run_ask_of_success h hidle herr
  cases hrun
  have hlen : ((s.serve (targetRead s)).2.take (s.u 2)).length = s.u 2 := by
    simp [targetRead, State.serve]
  have hbyte := w.bufByte_bufWith (s.u 3) 0 ((s.serve (targetRead s)).2.take (s.u 2)) (j := k) (by omega)
  rw [Nat.zero_add] at hbyte
  refine hbyte.trans ?_
  simp [targetRead, State.serve, State.diskBytes]

theorem u_congr {i : Fin 8} (h : t.argl[i.val]? = s.argl[i.val]?) : t.u i = s.u i := by
  rw [Vector.getElem?_eq_getElem i.isLt, Vector.getElem?_eq_getElem i.isLt, Option.some_inj] at h
  exact congrArg BitVec.toNat h

/-- Settles O27: the PUT leaves its operand at its address, and the GET reads the bytes at that address. -/
theorem putThenGet : Obligations.PutThenGet := by
  intro s t v u hs hput hidle herr hblock _ hn _ hbs hv hargl hget hidle' herr' j hj
  obtain ⟨he, x, hx, hdisk⟩ := put_of_success hs hput hidle herr
  obtain ⟨-, -, -, -, -, -, -, -, -, hcfg, -⟩ := commandRegisterFrame .put s t hput
  obtain ⟨hn', -, hbs'⟩ := hcfg nofun
  have hu0 : v.u 0 = s.u 0 := u_congr (hargl 0 (by decide))
  have hu1 : v.u 1 = s.u 1 := u_congr (hargl 1 (by decide))
  have hu2 : v.u 2 = s.u 2 := u_congr (hargl 2 (by decide))
  have htarget : target v = target s := by
    rw [target, target, State.n, State.bs, hn, hbs, hn', hbs', hu0, hu1]
    rfl
  rw [get_of_success hv hget hidle' herr' (hu2 ▸ hj), hx j hj, hu0, htarget]
  obtain ⟨-, -, -, -, -, ho⟩ := transferError_eq_none.1 he
  have hoperand := congrArg (·[j]?) (put_operand he (bytesOf_length (s.u 2) x))
  simp only [State.diskBytes, bytesOf, List.getElem?_map, List.getElem?_range hj, Option.map_some] at hoperand
  rw [hblock _ (by omega), State.diskByte, hdisk]
  exact hoperand

end Sys2Proof.Machine

/-! ## What a command leaves alone in the BlockStore (R107, R319, R366, R405) -/

namespace Sys2Proof.Machine

open Sys2Proof.Spec

variable {s t : State} {i : Instr} {p : Prog} {r : Request} {l : List (Nat × Nat × Nat × Nat)} {d st off len : Nat}
  {x : Block} {k : Prog}

/-! ### Programs that write in given ranges only -/

/-- A WRITE is at the start of one of the ranges, and no longer than it. -/
def WritesAt (l : List (Nat × Nat × Nat × Nat)) (r : Request) : Prop :=
  r.isWrite = true → ∃ len, (r.disk, r.block, r.off, len) ∈ l ∧ r.len ≤ len

/-- Every WRITE the program makes is in one of the ranges, however it goes on. -/
abbrev Prog.WritesIn (l : List (Nat × Nat × Nat × Nat)) (p : Prog) : Prop :=
  p.All (fun _ => True) (fun _ _ _ => True) (WritesAt l)

theorem all_ite {E : Effects → Prop} {R : ErrorKind → Word → Word → Prop} {W : Request → Prop} {c : Prop} [Decidable c]
    {p q : Prog} (hp : p.All E R W) (hq : q.All E R W) : (if c then p else q).All E R W := by
  split <;> assumption

theorem writesIn_bsRead {f : Block → Prog} (h : ∀ b, (f b).WritesIn l) : (bsRead d st off len f).WritesIn l :=
  all_bsRead nofun h

theorem writesIn_readData {skip disks : List Nat} {bs : Nat} {f : List Block → Prog} (h : ∀ ds, (f ds).WritesIn l) :
    (readData bs st skip disks f).WritesIn l :=
  all_readData _ (fun _ _ => nofun) fun ds _ => h ds

theorem writesIn_bsWrite (hm : (d, st, off, len) ∈ l) (hx : x.length ≤ len) (h : k.WritesIn l) :
    (bsWrite d st off x k).WritesIn l :=
  all_bsWrite (fun _ => ⟨len, hm, hx⟩) h

theorem writesIn_checkFrom (n bs left stripe : Nat) : (checkFrom n bs left stripe).WritesIn l := by
  induction left generalizing stripe with
  | zero => trivial
  | succ left ih =>
    exact writesIn_readData fun _ => writesIn_bsRead fun _ => writesIn_bsRead fun _ => all_ite trivial (ih (stripe + 1))

/-- A transfer writes in the ranges if it does so from the address it resolves to. -/
theorem writesIn_transfer {f : Nat → Nat → Prog} (h : (f (target s).1 (target s).2).WritesIn l) :
    (transferChecks s s.operandsXfer f).WritesIn l := by
  rw [transferChecks_eq]
  cases transferError s with
  | none => exact h
  | some e => trivial

/-- A recovery case writes in the ranges if what follows its checks does. -/
theorem writesIn_recoveryOne (h : k.WritesIn l) : (recoveryChecksOne s s.operandsRec k).WritesIn l :=
  all_recoveryChecksOne (fun _ _ _ => h) fun _ _ _ => trivial

theorem writesIn_recoveryTwo (h : k.WritesIn l) : (recoveryChecksTwo s s.operandsRec k).WritesIn l :=
  all_recoveryChecksTwo (fun _ _ _ _ _ => h) fun _ _ _ => trivial

theorem writesIn_whenRole {ok : Bool} (h : k.WritesIn l) : (whenRole ok d st k).WritesIn l :=
  all_whenRole (fun _ => h) fun _ => trivial

/-! ### The ranges of each command (R313 to R317, R362 to R364) -/

theorem putProgram_writesIn (s : State) : (putProgram s).WritesIn (writeRanges .put s) := by
  unfold putProgram
  refine writesIn_transfer ?_
  unfold writeRanges
  dsimp only
  cases s.params.putParityMode with
  | recompute =>
    exact writesIn_readData fun ds => all_withBuffer fun x hx =>
      writesIn_bsWrite (.head _) (s.bufBytes_length hx).le <|
      writesIn_bsWrite (.tail _ (.head _)) (pParity_length_le _ _) <|
      writesIn_bsWrite (.tail _ (.tail _ (.head _))) (qParity_length_le _ _) trivial
  | incremental =>
    refine writesIn_bsRead fun old => writesIn_bsRead fun oldP => writesIn_bsRead fun oldQ =>
      all_withBuffer fun x hx => ?_
    have hlen : x.length ≤ s.u 2 := (s.bufBytes_length hx).le
    exact writesIn_bsWrite (.head _) hlen <|
      writesIn_bsWrite (.tail _ (.head _)) ((xorBlock_length_le _ _).trans hlen) <|
      writesIn_bsWrite (.tail _ (.tail _ (.head _))) ((qUpdate_length_le _ _ _ _).trans hlen) trivial

theorem recDoubleDataProgram_writesIn (s : State) :
    (recDoubleDataProgram s).WritesIn (writeRanges .recDoubleData s) := by
  refine writesIn_recoveryTwo <| writesIn_whenRole <| writesIn_whenRole <| writesIn_readData fun ds =>
    writesIn_bsRead fun pb => writesIn_bsRead fun qb => ?_
  split
  · trivial
  · have hpd : (xorBlock pb (pParity s.bs ds)).length ≤ s.bs := (xorBlock_length_le _ _).trans (pParity_length_le _ _)
    exact writesIn_bsWrite (.head _) ((solveBlocks_fst_length_le _ _ _).trans hpd) <|
      writesIn_bsWrite (.tail _ (.head _)) ((solveBlocks_snd_length_le _ _ _).trans hpd) trivial

/-- The two blocks of the list are the data block and the parity block, in either order (R317). -/
theorem recDataAndParityProgram_writesIn (s : State) :
    (recDataAndParityProgram s).WritesIn (writeRanges .recDataAndParity s) := by
  refine writesIn_recoveryTwo <| writesIn_whenRole <| writesIn_readData fun ds => ?_
  have hmem {c : Prop} [Decidable c] {a b : Nat} (ha : (a, s.u 2, 0, s.bs) ∈ writeRanges .recDataAndParity s)
      (hb : (b, s.u 2, 0, s.bs) ∈ writeRanges .recDataAndParity s) :
      ((if c then a else b), s.u 2, 0, s.bs) ∈ writeRanges .recDataAndParity s := by
    split <;> assumption
  have h0 : (s.u 1, s.u 2, 0, s.bs) ∈ writeRanges .recDataAndParity s := .head _
  have h1 : (s.u 3, s.u 2, 0, s.bs) ∈ writeRanges .recDataAndParity s := .tail _ (.head _)
  refine all_ite (writesIn_bsRead fun pb => ?_) (writesIn_bsRead fun qb => ?_)
  · exact writesIn_bsWrite (hmem h1 h0) ((xorBlock_length_le _ _).trans (pParity_length_le _ _)) <|
      writesIn_bsWrite (hmem h0 h1) (qParity_length_le _ _) trivial
  · exact writesIn_bsWrite (hmem h1 h0)
      ((scaleBlock_length _ _).trans_le ((xorBlock_length_le _ _).trans (qParity_length_le _ _))) <|
      writesIn_bsWrite (hmem h0 h1) (pParity_length_le _ _) trivial

/-- A command that does not see CFG makes no request: it would lie inside an empty CFG too. -/
theorem writesIn_of_cfg_unseen (h : program i { s with cfgNblocks := 0#32 } = program i s) : (program i s).WritesIn l :=
  h ▸ (program_inside i { s with cfgNblocks := 0#32 }).mono (fun _ => id) (fun _ _ _ => id) fun _ hr =>
    absurd hr.2.1 (Nat.not_lt_zero _)

/-- Every command writes in its ranges only. -/
theorem program_writesIn (i : Instr) (s : State) : (program i s).WritesIn (writeRanges i s) := by
  cases i with
  | gfMul | gfPow | gfInv | gfSolve2 | blkXor | blkScale | parUpdateP | parUpdateQ | init =>
    exact writesIn_of_cfg_unseen rfl
  | parComputeP => exact all_blockChecks (fun _ => all_withBuffers _ _ fun _ _ => trivial) fun _ => trivial
  | parComputeQ => exact all_blockChecks (fun _ => all_withBuffers _ _ fun _ _ => trivial) fun _ => trivial
  | layPdiskP => exact all_whenConfigured (fun _ => all_whenStripe (fun _ => trivial) fun _ => trivial) fun _ => trivial
  | layPdiskQ => exact all_whenConfigured (fun _ => all_whenStripe (fun _ => trivial) fun _ => trivial) fun _ => trivial
  | layIspar =>
    exact all_whenConfigured (fun _ => all_whenDisk (fun _ => all_whenStripe (fun _ => all_ite trivial trivial)
      fun _ => trivial) fun _ => trivial) fun _ => trivial
  | layResolve =>
    exact all_whenConfigured (fun _ => all_whenDisk (fun _ => all_ite trivial trivial) fun _ => trivial)
      fun _ => trivial
  | put => exact putProgram_writesIn s
  | putraw =>
    unfold program putrawProgram
    exact writesIn_transfer <| all_withBuffer fun x hx => writesIn_bsWrite (.head _) (s.bufBytes_length hx).le trivial
  | get =>
    unfold program getProgram
    exact writesIn_transfer <| writesIn_bsRead fun _ => trivial
  | recSingleData =>
    exact writesIn_recoveryOne <| writesIn_whenRole <| writesIn_readData fun _ => writesIn_bsRead fun _ =>
      writesIn_bsWrite (.head _) ((xorBlock_length_le _ _).trans (pParity_length_le _ _)) trivial
  | recSingleParity =>
    refine writesIn_recoveryOne <| writesIn_whenRole <| writesIn_readData fun ds =>
      writesIn_bsWrite (.head _) ?_ trivial
    split
    · exact pParity_length_le _ _
    · exact qParity_length_le _ _
  | recDoubleData => exact recDoubleDataProgram_writesIn s
  | recDoubleParity =>
    exact writesIn_recoveryTwo <| writesIn_whenRole <| writesIn_whenRole <| writesIn_readData fun _ =>
      writesIn_bsWrite (.head _) (pParity_length_le _ _) <|
      writesIn_bsWrite (.tail _ (.head _)) (qParity_length_le _ _) trivial
  | recDataAndParity => exact recDataAndParityProgram_writesIn s
  | check => exact all_whenConfigured (fun _ => writesIn_checkFrom _ _ _ _) fun _ => trivial

/-! ### The frame -/

theorem receive_disk_of_read (h : r.isWrite = false) : (s.receive r).1.disk = s.disk := by
  cases r with
  | write => cases h
  | read d blk off len =>
    have hr := s.takeAnswer.2.respond_cases (.read d blk off len) s.takeAnswer.1
    rw [← s.takeAnswer_disk, State.receive]
    rcases hr with e | ⟨_, -, e⟩ | e <;> rw [e] <;> rfl

/-- A program without a range to write in leaves the store as it is (R106). -/
theorem run_disk_of_no_range (hp : p.WritesIn []) (h : p.run s = .next t) : t.disk = s.disk := by
  induction p generalizing s with
  | done e =>
    cases h
    rfl
  | raise kind d b =>
    cases h
    rfl
  | stop f => cases h
  | ask r f ih =>
    obtain ⟨hr, hf⟩ := hp
    have hread : r.isWrite = false := by
      rw [Bool.eq_false_iff]
      intro hw
      obtain ⟨_, hm, -⟩ := hr hw
      cases hm
    have hdisk := receive_disk_of_read (s := s) hread
    rw [Prog.run] at h
    split at h
    case h_1 u bytes hu => exact (ih bytes (hf bytes) h).trans (by rw [← hdisk, hu])
    case h_2 u kind hu =>
      cases h
      rw [← hdisk, hu]
      rfl
    case h_3 u hu =>
      cases h
      rw [← hdisk, hu]

theorem exec_disk_of_no_range (hl : writeRanges i s = []) (h : exec i s = .next t) : t.disk = s.disk := by
  have hp := program_writesIn i s
  rw [exec_eq_runCommand, runCommand] at h
  split at h
  · cases h
    rfl
  · rw [hl] at hp
    exact run_disk_of_no_range ((hp.resume _).mono (fun _ => id) (fun _ _ _ _ => trivial) fun _ => id) h

theorem Prog.All.and {E : Effects → Prop} {R : ErrorKind → Word → Word → Prop} {W W' : Request → Prop} (h : p.All E R W)
    (h' : p.All E R W') : p.All E R fun r => W r ∧ W' r := by
  induction p with
  | done e => exact h
  | raise kind d b => exact h
  | stop f => trivial
  | ask r f ih => exact ⟨⟨h.1, h'.1⟩, fun b => ih b (h.2 b) (h'.2 b)⟩

/-- A WRITE in one of the ranges leaves a byte outside them alone. -/
theorem untouched_of_writesAt (hr : WritesAt l r) (hout : ∀ g ∈ l, ¬InRange d st off g) : Untouched r d st off := by
  rintro hw ⟨hd, hblk, hlo, hhi⟩
  obtain ⟨len, hm, hlen⟩ := hr hw
  exact hout _ hm ⟨hd, hblk, hlo, hhi.trans_le (Nat.add_le_add_left hlen _)⟩

/-- Settles O38: every WRITE of the command lies inside CFG and in one of its ranges. -/
theorem diskFrame : Obligations.DiskFrame := by
  intro i s t h
  refine ⟨fun hl => exec_disk_of_no_range hl h, fun d blk off hb ho hout => ?_⟩
  rw [exec_eq_runCommand] at h
  obtain ⟨u, -, hread, -, hend⟩ := runCommand_spec ((program_inside i s).and (program_writesIn i s)) h
  have hdisk : t.disk = u.disk := by
    rcases hend with ⟨e, -, rfl⟩ | ⟨kind, d, b, -, rfl⟩ | ⟨rfl, -⟩ <;> rfl
  have hkey := hread (diskKey d blk off) fun r ⟨hin, hat⟩ =>
    not_covers_of_untouched hin hb ho (untouched_of_writesAt hat hout)
  rw [State.diskByte, hdisk, hkey, State.diskByte]

/-! ### A store that is consistent stays so (R366(d), R461(b)) -/

/-- Every range a command writes lies in one stripe: the resolved one for a transfer, the named one for a recovery. -/
def stripeOf (i : Instr) (s : State) : Nat := if recoveryNeed i = none then (target s).1 else s.u 2

theorem block_of_mem_writeRanges {g : Nat × Nat × Nat × Nat} (h : g ∈ writeRanges i s) : g.2.1 = stripeOf i s := by
  cases i with
  | put =>
    unfold writeRanges at h
    dsimp only at h
    split at h <;> simp only [List.mem_cons, List.not_mem_nil, or_false] at h <;> rcases h with rfl | rfl | rfl <;> rfl
  | _ => grind [writeRanges, stripeOf, recoveryNeed]

/-- A stripe that a command does not write keeps its blocks. -/
theorem exec_diskBytes_other (h : exec i s = .next t) (hst : st < s.nb) (hne : st ≠ stripeOf i s) (d : Nat) :
    t.diskBytes d st 0 s.bs = s.diskBytes d st 0 s.bs := by
  have hnb : s.nb < 2 ^ 32 := s.cfgNblocks.isLt
  have hbs : s.bs < 2 ^ 32 := s.cfgBsize.isLt
  refine List.map_congr_left fun j hj => ?_
  rw [List.mem_range] at hj
  exact (diskFrame i s t h).2 d st (0 + j) (by omega) (by omega) fun g hg hin =>
    hne (hin.2.1.trans (block_of_mem_writeRanges hg))

/-- The invariants of a stripe are about its blocks. -/
theorem invariants_of_blocks (hn : t.cfgNdisks = s.cfgNdisks) (hbs : t.cfgBsize = s.cfgBsize) (h3 : 3 ≤ s.n)
    (h : ∀ d < s.n, t.diskBytes d st 0 s.bs = s.diskBytes d st 0 s.bs) (hinv : s.InvariantP st ∧ s.InvariantQ st) :
    t.InvariantP st ∧ t.InvariantQ st := by
  have hn' : t.n = s.n := congrArg BitVec.toNat hn
  have hbs' : t.bs = s.bs := congrArg BitVec.toNat hbs
  have hdata : t.stripeData st = s.stripeData st := by
    rw [State.stripeData, hn', hbs']
    exact List.map_congr_left fun d hd => h d (mem_dataDisks.1 hd).1
  rw [State.InvariantP, State.InvariantQ, hn', hbs', hdata]
  exact hinv.imp (h _ (pDisk_lt h3 st)).trans (h _ (qDisk_lt h3 st)).trans

/-- A successful PUT leaves its stripe consistent (R366(a)). -/
theorem put_keeps_invariants (hs : s.Started) (h : exec .put s = .next t) (hidle : t.seq = .idle) (herr : t.err = false)
    (hinv : s.InvariantP (target s).1 ∧ s.InvariantQ (target s).1) :
    t.InvariantP (target s).1 ∧ t.InvariantQ (target s).1 := by
  obtain ⟨hrecompute, hincremental⟩ := putKeepsStripeInvariants s t hs h hidle herr
  cases hm : s.params.putParityMode with
  | recompute => exact hrecompute hm
  | incremental =>
    obtain ⟨hP, hQ⟩ := hincremental hm
    exact hinv.imp hP hQ

/-- Of the commands that are no recovery case only PUT and PUTRAW have a range to write in. -/
theorem writeRanges_eq_nil (hput : i ≠ .put) (hraw : i ≠ .putraw) (hrec : recoveryNeed i = none) :
    writeRanges i s = [] := by
  cases i with
  | put => exact absurd rfl hput
  | putraw => exact absurd rfl hraw
  | recSingleData | recSingleParity | recDoubleData | recDoubleParity | recDataAndParity => cases hrec
  | _ => rfl

/-- Settles O37: a stripe that is not written keeps its blocks, a recovery case restores the blocks it writes, and PUT
keeps the invariants of its stripe. -/
theorem storeStaysConsistent : Obligations.StoreStaysConsistent := by
  intro i s t hraw hinit hcfg hcons hs h hidle herr st hst
  obtain ⟨-, -, -, -, -, -, -, -, -, hsame, -⟩ := commandRegisterFrame i s t h
  obtain ⟨hn, hnb, hbs⟩ := hsame hinit
  have hst' : st < s.nb := hst.trans_eq (congrArg BitVec.toNat hnb)
  have h3 : 3 ≤ s.n := by omega
  have hinv := hcons st hst'
  by_cases hne : st = stripeOf i s
  case neg => exact invariants_of_blocks hn hbs h3 (fun d _ => exec_diskBytes_other h hst' hne d) hinv
  case pos =>
    by_cases hrec : recoveryNeed i = none
    case neg =>
      have hnamed : st = s.u 2 := hne.trans (if_neg hrec)
      subst hnamed
      exact invariants_of_blocks hn hbs h3 (recoveryRestoresStripe i s s t hrec hcfg rfl rfl rfl hinv.1 (.inr hinv.2)
        (fun _ _ _ => rfl) hs h hidle herr) hinv
    case pos =>
      by_cases hput : i = .put
      case pos =>
        subst hput hne
        exact put_keeps_invariants hs h hidle herr hinv
      case neg =>
        have hdisk := exec_disk_of_no_range (writeRanges_eq_nil hput hraw hrec) h
        obtain ⟨hP, hQ⟩ := invariants_of_disk hdisk hn hbs st
        exact hinv.imp hP hQ

end Sys2Proof.Machine

/-! ## The error kinds of each command (R109, R148, R402, R406) -/

namespace Sys2Proof.Machine

open Sys2Proof.Spec

variable {s t : State} {i : Instr} {l : List ErrorKind} {k : Prog}

/-! ### Programs that raise listed kinds only -/

/-- Every error the program raises itself is of a listed kind, and where it makes a request the list has every kind that a
BlockStore failure maps to (R109). -/
abbrev Prog.RaisesIn (l : List ErrorKind) (p : Prog) : Prop :=
  p.All (fun _ => True) (fun kind _ _ => kind ∈ l) (fun _ => ∀ f, storeError f ∈ l)

/-- A row that lists StorageIOError lists every kind that a BlockStore failure maps to (R109, R402). -/
theorem storeError_mem_errorKinds (h : .storageIO ∈ errorKinds i) (f : StoreFailure) :
    storeError f ∈ errorKinds i := by
  cases i with
  | put | putraw | get | recSingleData | recSingleParity | recDoubleData | recDoubleParity | recDataAndParity | check =>
    cases f <;> decide
  | _ => exact absurd h (by decide)

/-- The checks of R360 raise LayoutError and BoundsError. -/
theorem kind_of_transferError {e : ErrorKind × Word × Word} (h : transferError s = some e) :
    e.1 = .layout ∨ e.1 = .bounds := by
  unfold transferError at h
  split_ifs at h <;> cases h <;> simp

theorem raisesIn_transfer {f : Nat → Nat → Prog} (hl : .layout ∈ l) (hb : .bounds ∈ l)
    (h : (f (target s).1 (target s).2).RaisesIn l) : (transferChecks s s.operandsXfer f).RaisesIn l := by
  rw [transferChecks_eq]
  cases he : transferError s with
  | none => exact h
  | some e =>
    show e.1 ∈ l
    rcases kind_of_transferError he with hk | hk <;> rwa [hk]

theorem raisesIn_recoveryOne {o : OperandsRec} (hl : .layout ∈ l) (hr : .recoveryPrecondition ∈ l)
    (h : k.RaisesIn l) : (recoveryChecksOne s o k).RaisesIn l :=
  all_whenConfigured (fun _ => all_ite hr <|
    all_whenDisk (fun _ => all_whenStripe (fun _ => h) fun _ => hl) fun _ => hl) fun _ => hl

theorem raisesIn_recoveryTwo {o : OperandsRec} (hl : .layout ∈ l) (hr : .recoveryPrecondition ∈ l)
    (h : k.RaisesIn l) : (recoveryChecksTwo s o k).RaisesIn l :=
  all_whenConfigured (fun _ => all_ite hr <|
    all_whenDisk (fun _ => all_whenDisk (fun _ => all_ite hr <| all_ite hr <|
      all_whenStripe (fun _ => h) fun _ => hl) fun _ => hl) fun _ => hl) fun _ => hl

theorem raisesIn_whenRole {ok : Bool} {d st : Nat} (hr : .recoveryPrecondition ∈ l) (h : k.RaisesIn l) :
    (whenRole ok d st k).RaisesIn l :=
  all_whenRole (fun _ => h) fun _ => hr

theorem raisesIn_checkFrom (hs : ∀ f, storeError f ∈ l) (n bs left stripe : Nat) :
    (checkFrom n bs left stripe).RaisesIn l := by
  induction left generalizing stripe with
  | zero => trivial
  | succ left ih =>
    exact all_readData _ (fun _ _ => hs) fun _ _ => all_bsRead hs fun _ => all_bsRead hs fun _ =>
      all_ite trivial (ih (stripe + 1))

/-! ### The rows of R402 -/

theorem putProgram_raisesIn (s : State) : (putProgram s).RaisesIn (errorKinds .put) := by
  have hs := storeError_mem_errorKinds (i := .put) (by decide)
  unfold putProgram
  refine raisesIn_transfer (by decide) (by decide) ?_
  cases s.params.putParityMode with
  | recompute =>
    exact all_readData _ (fun _ _ => hs) fun _ _ => all_withBuffer fun _ _ =>
      all_bsWrite hs <| all_bsWrite hs <| all_bsWrite hs trivial
  | incremental =>
    exact all_bsRead hs fun _ => all_bsRead hs fun _ => all_bsRead hs fun _ => all_withBuffer fun _ _ =>
      all_bsWrite hs <| all_bsWrite hs <| all_bsWrite hs trivial

/-- The row of a recovery case lists what its checks and its requests raise (R310, R402). -/
theorem errorKinds_of_recovery (hi : recoveryNeed i ≠ none) :
    .layout ∈ errorKinds i ∧ .recoveryPrecondition ∈ errorKinds i ∧ ∀ f, storeError f ∈ errorKinds i := by
  cases i with
  | recSingleData | recSingleParity | recDoubleData | recDoubleParity | recDataAndParity =>
    exact ⟨by decide, by decide, storeError_mem_errorKinds (by decide)⟩
  | _ => exact absurd rfl hi

/-- Every command raises the kinds of its row only. -/
theorem program_raisesIn (i : Instr) (s : State) : (program i s).RaisesIn (errorKinds i) := by
  cases i with
  | gfMul => trivial
  | gfPow => trivial
  | gfInv =>
    simp only [program, gfInvProgram]
    split
    · exact .head _
    · trivial
  | gfSolve2 =>
    refine all_ite (.head _) ?_
    split <;> trivial
  | blkXor =>
    exact all_blockChecks (fun _ => all_withBuffer fun _ _ => all_withBuffer fun _ _ => trivial) fun _ => .head _
  | blkScale => exact all_blockChecks (fun _ => all_withBuffer fun _ _ => trivial) fun _ => .head _
  | parComputeP => exact all_blockChecks (fun _ => all_withBuffers _ _ fun _ _ => trivial) fun _ => .head _
  | parComputeQ => exact all_blockChecks (fun _ => all_withBuffers _ _ fun _ _ => trivial) fun _ => .head _
  | parUpdateP =>
    exact all_blockChecks (fun _ => all_withBuffer fun _ _ => all_withBuffer fun _ _ => all_withBuffer fun _ _ => trivial)
      fun _ => .head _
  | parUpdateQ =>
    exact all_blockChecks (fun _ => all_withBuffer fun _ _ => all_withBuffer fun _ _ => all_withBuffer fun _ _ => trivial)
      fun _ => .head _
  | layPdiskP => exact all_whenConfigured (fun _ => all_whenStripe (fun _ => trivial) fun _ => .head _) fun _ => .head _
  | layPdiskQ => exact all_whenConfigured (fun _ => all_whenStripe (fun _ => trivial) fun _ => .head _) fun _ => .head _
  | layIspar =>
    exact all_whenConfigured (fun _ => all_whenDisk (fun _ => all_whenStripe (fun _ => all_ite trivial trivial)
      fun _ => .head _) fun _ => .head _) fun _ => .head _
  | layResolve =>
    exact all_whenConfigured (fun _ => all_whenDisk (fun _ => all_ite (.tail _ (.head _)) trivial) fun _ => .head _)
      fun _ => .head _
  | init => exact all_ite (.head _) (all_ite (.tail _ (.head _)) trivial)
  | put => exact putProgram_raisesIn s
  | putraw =>
    have hs := storeError_mem_errorKinds (i := .putraw) (by decide)
    unfold program putrawProgram
    exact raisesIn_transfer (by decide) (by decide) <| all_withBuffer fun _ _ => all_bsWrite hs trivial
  | get =>
    have hs := storeError_mem_errorKinds (i := .get) (by decide)
    unfold program getProgram
    exact raisesIn_transfer (by decide) (by decide) <| all_bsRead hs fun _ => trivial
  | recSingleData =>
    obtain ⟨hl, hr, hs⟩ := errorKinds_of_recovery (i := .recSingleData) nofun
    exact raisesIn_recoveryOne hl hr <| raisesIn_whenRole hr <| all_readData _ (fun _ _ => hs) fun _ _ =>
      all_bsRead hs fun _ => all_bsWrite hs trivial
  | recSingleParity =>
    obtain ⟨hl, hr, hs⟩ := errorKinds_of_recovery (i := .recSingleParity) nofun
    exact raisesIn_recoveryOne hl hr <| raisesIn_whenRole hr <| all_readData _ (fun _ _ => hs) fun _ _ =>
      all_bsWrite hs trivial
  | recDoubleData =>
    obtain ⟨hl, hr, hs⟩ := errorKinds_of_recovery (i := .recDoubleData) nofun
    refine raisesIn_recoveryTwo hl hr <| raisesIn_whenRole hr <| raisesIn_whenRole hr <|
      all_readData _ (fun _ _ => hs) fun _ _ => all_bsRead hs fun _ => all_bsRead hs fun _ => ?_
    split
    · trivial
    · exact all_bsWrite hs <| all_bsWrite hs trivial
  | recDoubleParity =>
    obtain ⟨hl, hr, hs⟩ := errorKinds_of_recovery (i := .recDoubleParity) nofun
    exact raisesIn_recoveryTwo hl hr <| raisesIn_whenRole hr <| raisesIn_whenRole hr <|
      all_readData _ (fun _ _ => hs) fun _ _ => all_bsWrite hs <| all_bsWrite hs trivial
  | recDataAndParity =>
    obtain ⟨hl, hr, hs⟩ := errorKinds_of_recovery (i := .recDataAndParity) nofun
    exact raisesIn_recoveryTwo hl hr <| raisesIn_whenRole hr <| all_readData _ (fun _ _ => hs) fun _ _ =>
      all_ite (all_bsRead hs fun _ => all_bsWrite hs <| all_bsWrite hs trivial)
        (all_bsRead hs fun _ => all_bsWrite hs <| all_bsWrite hs trivial)
  | check =>
    exact all_whenConfigured (fun _ => raisesIn_checkFrom (storeError_mem_errorKinds (by decide)) _ _ _ _) fun _ => .head _

/-- Settles O39: a command ends in error only where its program or a BlockStore failure raises one, and the program of an
illegal word can but raise IllegalCommand. -/
theorem errorKindsOfEachCommand : Obligations.ErrorKindsOfEachCommand := by
  constructor
  · intro i s t h hidle herr
    rw [exec_eq_runCommand] at h
    obtain ⟨u, -, -, -, hend⟩ := runCommand_spec (program_raisesIn i s) h
    rcases hend with ⟨e, -, rfl⟩ | ⟨kind, d, b, hr, rfl⟩ | ⟨rfl, hist, r, hq⟩
    · cases herr
    · exact ⟨kind, rfl, hr.elim id fun ⟨_, f, hs, hk, _⟩ => hk ▸ hs f⟩
    · cases hq.symm.trans hidle
  · intro s t e ha hb hd h hidle
    rw [step_nil ha, coreRun_busy hb, commandProgram_of_illegal hd] at h
    have hp : illegalProgram.All (fun _ => False) (fun kind _ _ => kind = .illegalCommand) (fun _ => False) := rfl
    obtain ⟨u, -, -, -, hend⟩ := runCommand_spec hp h
    rcases hend with ⟨e, he, -⟩ | ⟨kind, d, b, hr, rfl⟩ | ⟨rfl, hist, r, hq⟩
    · exact he.elim
    · exact ⟨rfl, congrArg some (hr.elim id fun ⟨_, _, hw, _⟩ => hw.elim)⟩
    · cases hq.symm.trans hidle

end Sys2Proof.Machine

/-! ## The request discipline (R110, R319, R405) -/

namespace Sys2Proof.Machine

open Sys2Proof.Spec

variable {s : State} {i : Instr} {p q k : Prog} {d st off len : Nat} {x : Block}

/-! ### What the pieces of a program make of it -/

theorem onlyWrites_bsWrite (h : k.OnlyWrites) : (bsWrite d st off x k).OnlyWrites := ⟨rfl, fun _ => h⟩

theorem readsFirst_bsWrite (h : k.OnlyWrites) : (bsWrite d st off x k).ReadsFirst := ⟨fun _ _ => h, nofun⟩

theorem readsFirst_bsRead {f : Block → Prog} (h : ∀ b, (f b).ReadsFirst) : (bsRead d st off len f).ReadsFirst :=
  ⟨nofun, fun _ => h⟩

theorem readsFirst_ite {c : Prop} [Decidable c] (hp : p.ReadsFirst) (hq : q.ReadsFirst) :
    (if c then p else q).ReadsFirst := by
  split <;> assumption

theorem readsFirst_withBuffer {b : Nat} {f : Block → Prog} (h : ∀ x, (f x).ReadsFirst) :
    (withBuffer s b len f).ReadsFirst := by
  unfold withBuffer
  split
  · exact h _
  · trivial

theorem readsFirst_readData {skip : List Nat} {bs : Nat} (disks : List Nat) {f : List Block → Prog}
    (h : ∀ ds, (f ds).ReadsFirst) : (readData bs st skip disks f).ReadsFirst := by
  induction disks generalizing f with
  | nil => exact h []
  | cons d disks ih => exact readsFirst_ite (ih fun _ => h _) (readsFirst_bsRead fun _ => ih fun _ => h _)

theorem readsFirst_transfer {f : Nat → Nat → Prog} (h : (f (target s).1 (target s).2).ReadsFirst) :
    (transferChecks s s.operandsXfer f).ReadsFirst := by
  rw [transferChecks_eq]
  cases transferError s with
  | none => exact h
  | some e => trivial

theorem readsFirst_whenRole {ok : Bool} (h : k.ReadsFirst) : (whenRole ok d st k).ReadsFirst :=
  readsFirst_ite h trivial

theorem readsFirst_recoveryOne {o : OperandsRec} (h : k.ReadsFirst) : (recoveryChecksOne s o k).ReadsFirst :=
  readsFirst_ite trivial <| readsFirst_ite trivial <| readsFirst_ite trivial <| readsFirst_ite trivial h

theorem readsFirst_recoveryTwo {o : OperandsRec} (h : k.ReadsFirst) : (recoveryChecksTwo s o k).ReadsFirst :=
  readsFirst_ite trivial <| readsFirst_ite trivial <| readsFirst_ite trivial <| readsFirst_ite trivial <|
    readsFirst_ite trivial <| readsFirst_ite trivial <| readsFirst_ite trivial h

/-- A program without a range to write in makes READs only. -/
theorem readsFirst_of_no_range (h : p.WritesIn []) : p.ReadsFirst := by
  induction p with
  | done e => trivial
  | raise kind d b => trivial
  | stop f => trivial
  | ask r f ih =>
    obtain ⟨hr, hf⟩ := h
    refine ⟨fun hw => ?_, fun _ b => ih b (hf b)⟩
    obtain ⟨_, hm, -⟩ := hr hw
    cases hm

/-! ### The commands -/

theorem program_readsFirst_of_no_range (h : writeRanges i s = []) : (program i s).ReadsFirst :=
  readsFirst_of_no_range (h ▸ program_writesIn i s)

theorem putProgram_readsFirst (s : State) : (putProgram s).ReadsFirst := by
  unfold putProgram
  refine readsFirst_transfer ?_
  cases s.params.putParityMode with
  | recompute =>
    exact readsFirst_readData _ fun _ => readsFirst_withBuffer fun _ =>
      readsFirst_bsWrite <| onlyWrites_bsWrite <| onlyWrites_bsWrite trivial
  | incremental =>
    exact readsFirst_bsRead fun _ => readsFirst_bsRead fun _ => readsFirst_bsRead fun _ => readsFirst_withBuffer fun _ =>
      readsFirst_bsWrite <| onlyWrites_bsWrite <| onlyWrites_bsWrite trivial

/-- A command without a range to write in makes READs only; each of the others ends with its WRITEs. -/
theorem program_readsFirst (i : Instr) (s : State) : (program i s).ReadsFirst := by
  cases i with
  | put => exact putProgram_readsFirst s
  | putraw =>
    unfold program putrawProgram
    exact readsFirst_transfer <| readsFirst_withBuffer fun _ => readsFirst_bsWrite trivial
  | recSingleData =>
    exact readsFirst_recoveryOne <| readsFirst_whenRole <| readsFirst_readData _ fun _ => readsFirst_bsRead fun _ =>
      readsFirst_bsWrite trivial
  | recSingleParity =>
    exact readsFirst_recoveryOne <| readsFirst_whenRole <| readsFirst_readData _ fun _ => readsFirst_bsWrite trivial
  | recDoubleData =>
    refine readsFirst_recoveryTwo <| readsFirst_whenRole <| readsFirst_whenRole <| readsFirst_readData _ fun _ =>
      readsFirst_bsRead fun _ => readsFirst_bsRead fun _ => ?_
    split
    · trivial
    · exact readsFirst_bsWrite <| onlyWrites_bsWrite trivial
  | recDoubleParity =>
    exact readsFirst_recoveryTwo <| readsFirst_whenRole <| readsFirst_whenRole <| readsFirst_readData _ fun _ =>
      readsFirst_bsWrite <| onlyWrites_bsWrite trivial
  | recDataAndParity =>
    exact readsFirst_recoveryTwo <| readsFirst_whenRole <| readsFirst_readData _ fun _ => readsFirst_ite
      (readsFirst_bsRead fun _ => readsFirst_bsWrite <| onlyWrites_bsWrite trivial)
      (readsFirst_bsRead fun _ => readsFirst_bsWrite <| onlyWrites_bsWrite trivial)
  | _ => exact program_readsFirst_of_no_range rfl

/-- Settles O58: the order of the requests is that of the command's program, which `exec` runs. -/
theorem readsBeforeWrites : Obligations.ReadsBeforeWrites := fun i s => ⟨program_readsFirst i s, exec_eq_runCommand i s⟩

end Sys2Proof.Machine

/-! ## Reset at any moment (R450 to R453) -/

namespace Sys2Proof.Machine

open Sys2Proof.Spec

variable {s : State} {r : Request} {d blk off key : Nat}

/-- A byte outside what a request writes has a key outside the request's, where the request lies in the store's address space.
An abandoned request need not lie inside CFG, as it must in `not_covers_of_untouched`. -/
theorem not_covers_of_addressable (hrb : r.block < 2 ^ 32) (hre : r.off + r.len ≤ 2 ^ 32) (hb : blk < 2 ^ 32)
    (ho : off < 2 ^ 32) (hout : ¬InRange d blk off (r.disk, r.block, r.off, r.len)) : ¬r.Covers (diskKey d blk off) := by
  rintro ⟨-, hlo, hhi⟩
  refine hout ?_
  simp only [diskKey] at hlo hhi
  simp only [InRange]
  omega

/-- A reset leaves every core field at its reset value; what it does not say is the store and the free values (R451, R452). -/
theorem coreReset_eq (s : State) :
    coreReset s = { State.reset with
      params := s.params, disk := (coreReset s).disk, geometry := s.geometry, answers := s.answers, agenda := s.agenda,
      rdata := s.rdata, draws := (coreReset s).draws, completions := s.completions } := by
  unfold coreReset
  cases s.outstanding with
  | none => rfl
  | some r => cases r <;> rfl

/-- A reset leaves every byte of the disk alone but those an outstanding WRITE covers (R452). -/
theorem coreReset_disk (h : ∀ r, s.outstanding = some r → ¬r.Covers key) :
    Memory.read diskUnlisted (coreReset s).disk key = Memory.read diskUnlisted s.disk key := by
  unfold coreReset
  cases hr : s.outstanding with
  | none => rfl
  | some r => exact s.spoil_disk r (h r hr)

/-- Settles O46: only an outstanding request reaches the store in a reset, and its keys are those of its own range. -/
theorem resetAbandonsCommand : Obligations.ResetAbandonsCommand := by
  intro s rest ha
  refine ⟨coreReset (s.afterEvent rest), step_cons ha, coreReset_eq _, fun d blk off hb ho hout => ?_⟩
  have hkey : ∀ r, (s.afterEvent rest).outstanding = some r → ¬r.Covers (diskKey d blk off) := fun r hr hc =>
    have ⟨hrb, hre, hapart⟩ := hout r hr hc.1
    not_covers_of_addressable hrb hre hb ho hapart hc
  exact congrArg (·.getD 0#8) (coreReset_disk hkey)

end Sys2Proof.Machine
